-- ==== Sys2Proof/Word.lean ====
section
/-! DEFINITION. The word types of the chippy execution block (00_scope.md R12, R13; 30_encoding.md R51). -/

namespace Sys2Proof

/-- A byte: a general register, a timer, a memory cell, the field NN. -/
abbrev Byte := BitVec 8

/-- 16 bits: an instruction word, PC, I, a return address. -/
abbrev Word := BitVec 16

/-- Four bits: one nibble of an instruction word (R12). -/
abbrev Nibble := BitVec 4

/-- The index of a general register, "a 4-bit field of the instruction word" (R18). -/
abbrev Reg := BitVec 4

/-- The 12-bit field NNN (R51). -/
abbrev Addr12 := BitVec 12

/-- A font digit or glyph row count is plain data; the recorded value of a fault has 17 bits (R30). -/
abbrev FaultInfo := BitVec 17

end Sys2Proof
end

