-- ==== Sys2Proof/Syntax.lean ====
section
/-! DEFINITION. The instructions: one constructor for each of the 34 rows of spec/opcode_table.json (30_encoding.md R52), in the
table's order. A field has exactly the width its encoding gives it (R51), so no term carries a value that no word encodes. -/

namespace Sys2Proof

/-- The 34 instructions. `x` and `y` are the register fields X and Y, `nn`, `nnn` and `n` the fields NN, NNN and N. -/
inductive Instr where
  /-- 00E0 CLS: clear the display (R94). -/
  | cls
  /-- 00EE RET: return from subroutine (R59). -/
  | ret
  /-- 1NNN JP NNN: jump (R60). -/
  | jp (nnn : Addr12)
  /-- 2NNN CALL NNN: call subroutine (R61). -/
  | call (nnn : Addr12)
  /-- 3XNN SE VX,NN: skip if equal to immediate (R62). -/
  | seImm (x : Reg) (nn : Byte)
  /-- 4XNN SNE VX,NN: skip if not equal to immediate (R63). -/
  | sneImm (x : Reg) (nn : Byte)
  /-- 5XY0 SE VX,VY: skip if registers equal (R64). -/
  | seReg (x y : Reg)
  /-- 6XNN LD VX,NN: load immediate (R69). -/
  | ldImm (x : Reg) (nn : Byte)
  /-- 7XNN ADD VX,NN: add immediate, no flag (R70). -/
  | addImm (x : Reg) (nn : Byte)
  /-- 8XY0 LD VX,VY: register move (R71). -/
  | ldReg (x y : Reg)
  /-- 8XY1 OR VX,VY (R72). -/
  | orReg (x y : Reg)
  /-- 8XY2 AND VX,VY (R73). -/
  | andReg (x y : Reg)
  /-- 8XY3 XOR VX,VY (R74). -/
  | xorReg (x y : Reg)
  /-- 8XY4 ADD VX,VY: add with carry out (R75). -/
  | addReg (x y : Reg)
  /-- 8XY5 SUB VX,VY: X minus Y (R76). -/
  | sub (x y : Reg)
  /-- 8XY6 SHR VX,VY: shift VY right into VX (R78). -/
  | shr (x y : Reg)
  /-- 8XY7 SUBN VX,VY: Y minus X (R77). -/
  | subn (x y : Reg)
  /-- 8XYE SHL VX,VY: shift VY left into VX (R79). -/
  | shl (x y : Reg)
  /-- 9XY0 SNE VX,VY: skip if registers differ (R65). -/
  | sneReg (x y : Reg)
  /-- ANNN LD I,NNN: set the index register (R81). -/
  | ldI (nnn : Addr12)
  /-- BNNN JP V0,NNN: indexed jump (R66). -/
  | jpV0 (nnn : Addr12)
  /-- CXNN RND VX,NN: random byte combined with an immediate (R80). -/
  | rnd (x : Reg) (nn : Byte)
  /-- DXYN DRW VX,VY,N: draw an N-row sprite from memory at I (R95). -/
  | drw (x y : Reg) (n : Nibble)
  /-- EX9E SKP VX: skip if the key numbered VX is pressed (R99). -/
  | skp (x : Reg)
  /-- EXA1 SKNP VX: skip if the key numbered VX is not pressed (R100). -/
  | sknp (x : Reg)
  /-- FX07 LD VX,DT: read the delay timer (R101). -/
  | ldVxDt (x : Reg)
  /-- FX0A LD VX,K: blocking key read (R102). -/
  | ldVxK (x : Reg)
  /-- FX15 LD DT,VX: set the delay timer (R103). -/
  | ldDtVx (x : Reg)
  /-- FX18 LD ST,VX: set the sound timer (R104). -/
  | ldStVx (x : Reg)
  /-- FX1E ADD I,VX: add a register to the index (R82). -/
  | addI (x : Reg)
  /-- FX29 LD F,VX: point the index at a digit glyph (R83). -/
  | ldF (x : Reg)
  /-- FX33 LD B,VX: BCD store (R84). -/
  | ldB (x : Reg)
  /-- FX55 LD [I],VX: store registers V0..VX (R85). -/
  | storeRegs (x : Reg)
  /-- FX65 LD VX,[I]: load registers V0..VX (R86). -/
  | loadRegs (x : Reg)
deriving DecidableEq, Repr

end Sys2Proof
end

