-- ==== Sys2Proof/Decode.lean ====
section
/-! DEFINITION. Decoding and encoding (30_encoding.md R50–R55).

`decodeWord` is the total `Decode(w)` of R53: one instruction row, or the unknown word by name. `encode` writes a word from the
same opcode map. `opcodeTable` is the map of R52 as masks and patterns, kept apart so that the two can be held against it. -/

namespace Sys2Proof

/-! ## Fields (R12, R51) -/

/-- `op1 = w[15:12]`. -/
def fieldOp (w : Word) : Nibble := w.extractLsb' 12 4

/-- `X = w[11:8]`. -/
def fieldX (w : Word) : Reg := w.extractLsb' 8 4

/-- `Y = w[7:4]`. -/
def fieldY (w : Word) : Reg := w.extractLsb' 4 4

/-- `N = w[3:0]`. -/
def fieldN (w : Word) : Nibble := w.extractLsb' 0 4

/-- `NN = w[7:0]`. -/
def fieldNN (w : Word) : Byte := w.extractLsb' 0 8

/-- `NNN = w[11:0]`. -/
def fieldNNN (w : Word) : Addr12 := w.extractLsb' 0 12

/-! ## Decode -/

/-- The outcome of `Decode(w)` (R53): an instruction row, or the word itself, matched by no row. -/
inductive Decoded where
  | instr (i : Instr)
  | unknown (w : Word)
deriving DecidableEq, Repr

/-- Group 8: `op4` is the function selector (R51, R52). -/
def decodeAlu (w : Word) : Decoded :=
  match fieldN w with
  | 0x0#4 => .instr (.ldReg (fieldX w) (fieldY w))
  | 0x1#4 => .instr (.orReg (fieldX w) (fieldY w))
  | 0x2#4 => .instr (.andReg (fieldX w) (fieldY w))
  | 0x3#4 => .instr (.xorReg (fieldX w) (fieldY w))
  | 0x4#4 => .instr (.addReg (fieldX w) (fieldY w))
  | 0x5#4 => .instr (.sub (fieldX w) (fieldY w))
  | 0x6#4 => .instr (.shr (fieldX w) (fieldY w))
  | 0x7#4 => .instr (.subn (fieldX w) (fieldY w))
  | 0xE#4 => .instr (.shl (fieldX w) (fieldY w))
  | _ => .unknown w

/-- Group E: the low byte selects (R52). -/
def decodeKey (w : Word) : Decoded :=
  match fieldNN w with
  | 0x9E#8 => .instr (.skp (fieldX w))
  | 0xA1#8 => .instr (.sknp (fieldX w))
  | _ => .unknown w

/-- Group F: the low byte selects (R52). -/
def decodeMisc (w : Word) : Decoded :=
  match fieldNN w with
  | 0x07#8 => .instr (.ldVxDt (fieldX w))
  | 0x0A#8 => .instr (.ldVxK (fieldX w))
  | 0x15#8 => .instr (.ldDtVx (fieldX w))
  | 0x18#8 => .instr (.ldStVx (fieldX w))
  | 0x1E#8 => .instr (.addI (fieldX w))
  | 0x29#8 => .instr (.ldF (fieldX w))
  | 0x33#8 => .instr (.ldB (fieldX w))
  | 0x55#8 => .instr (.storeRegs (fieldX w))
  | 0x65#8 => .instr (.loadRegs (fieldX w))
  | _ => .unknown w

/-- `Decode(w)`: every fixed nibble of a row must match (R52, R53), so 00E0 and 00EE match all 16 bits and 5XY0 and 9XY0 need
N = 0 (the spec's decision D11). -/
def decodeWord (w : Word) : Decoded :=
  match fieldOp w with
  | 0x0#4 => if w = 0x00E0#16 then .instr .cls else if w = 0x00EE#16 then .instr .ret else .unknown w
  | 0x1#4 => .instr (.jp (fieldNNN w))
  | 0x2#4 => .instr (.call (fieldNNN w))
  | 0x3#4 => .instr (.seImm (fieldX w) (fieldNN w))
  | 0x4#4 => .instr (.sneImm (fieldX w) (fieldNN w))
  | 0x5#4 => if fieldN w = 0 then .instr (.seReg (fieldX w) (fieldY w)) else .unknown w
  | 0x6#4 => .instr (.ldImm (fieldX w) (fieldNN w))
  | 0x7#4 => .instr (.addImm (fieldX w) (fieldNN w))
  | 0x8#4 => decodeAlu w
  | 0x9#4 => if fieldN w = 0 then .instr (.sneReg (fieldX w) (fieldY w)) else .unknown w
  | 0xA#4 => .instr (.ldI (fieldNNN w))
  | 0xB#4 => .instr (.jpV0 (fieldNNN w))
  | 0xC#4 => .instr (.rnd (fieldX w) (fieldNN w))
  | 0xD#4 => .instr (.drw (fieldX w) (fieldY w) (fieldN w))
  | 0xE#4 => decodeKey w
  | 0xF#4 => decodeMisc w
  | _ => .unknown w

/-- Big-endian composition of a word, the first byte the more significant (R38, R39). -/
def composeWord (hi lo : Byte) : Word := hi ++ lo

/-- The outcome of decoding a byte sequence: one word decoded and the bytes after it, or too few bytes for a word. -/
inductive ByteDecoded where
  | word (d : Decoded) (rest : List Byte)
  | truncated
deriving DecidableEq, Repr

/-- Decode the instruction at the head of a byte sequence. Every instruction has two bytes (R50). -/
def decodeBytes : List Byte → ByteDecoded
  | hi :: lo :: rest => .word (decodeWord (composeWord hi lo)) rest
  | _ => .truncated

/-! ## Encode -/

/-- Format `op1 X NN`. -/
def encodeXNN (op : Nibble) (x : Reg) (nn : Byte) : Word := op ++ x ++ nn

/-- Format `op1 X Y N`. -/
def encodeXYN (op : Nibble) (x y : Reg) (n : Nibble) : Word := op ++ x ++ y ++ n

/-- Format `op1 NNN`. -/
def encodeNNN (op : Nibble) (nnn : Addr12) : Word := op ++ nnn

/-- The word of an instruction, from the opcode map of R52. -/
def encode : Instr → Word
  | .cls => 0x00E0
  | .ret => 0x00EE
  | .jp nnn => encodeNNN 0x1 nnn
  | .call nnn => encodeNNN 0x2 nnn
  | .seImm x nn => encodeXNN 0x3 x nn
  | .sneImm x nn => encodeXNN 0x4 x nn
  | .seReg x y => encodeXYN 0x5 x y 0x0
  | .ldImm x nn => encodeXNN 0x6 x nn
  | .addImm x nn => encodeXNN 0x7 x nn
  | .ldReg x y => encodeXYN 0x8 x y 0x0
  | .orReg x y => encodeXYN 0x8 x y 0x1
  | .andReg x y => encodeXYN 0x8 x y 0x2
  | .xorReg x y => encodeXYN 0x8 x y 0x3
  | .addReg x y => encodeXYN 0x8 x y 0x4
  | .sub x y => encodeXYN 0x8 x y 0x5
  | .shr x y => encodeXYN 0x8 x y 0x6
  | .subn x y => encodeXYN 0x8 x y 0x7
  | .shl x y => encodeXYN 0x8 x y 0xE
  | .sneReg x y => encodeXYN 0x9 x y 0x0
  | .ldI nnn => encodeNNN 0xA nnn
  | .jpV0 nnn => encodeNNN 0xB nnn
  | .rnd x nn => encodeXNN 0xC x nn
  | .drw x y n => encodeXYN 0xD x y n
  | .skp x => encodeXNN 0xE x 0x9E
  | .sknp x => encodeXNN 0xE x 0xA1
  | .ldVxDt x => encodeXNN 0xF x 0x07
  | .ldVxK x => encodeXNN 0xF x 0x0A
  | .ldDtVx x => encodeXNN 0xF x 0x15
  | .ldStVx x => encodeXNN 0xF x 0x18
  | .addI x => encodeXNN 0xF x 0x1E
  | .ldF x => encodeXNN 0xF x 0x29
  | .ldB x => encodeXNN 0xF x 0x33
  | .storeRegs x => encodeXNN 0xF x 0x55
  | .loadRegs x => encodeXNN 0xF x 0x65

/-- The more significant byte of a word. -/
def highByte (w : Word) : Byte := w.extractLsb' 8 8

/-- The less significant byte of a word. -/
def lowByte (w : Word) : Byte := w.extractLsb' 0 8

/-- A word as the memory holds it: "most-significant byte first" (R39). -/
def wordBytes (w : Word) : List Byte := [highByte w, lowByte w]

/-- The two bytes of an instruction. -/
def encodeBytes (i : Instr) : List Byte := wordBytes (encode i)

/-! ## The opcode table (R52; spec/opcode_table.json) -/

/-- One row of the opcode table. A word matches when its bits under the mask equal the pattern. -/
structure OpRow where
  mnemonic : String
  mask : Word
  pattern : Word
deriving DecidableEq, Repr

/-- All the row's fixed nibbles are equal to the word's (R52). -/
def OpRow.matchesWord (r : OpRow) (w : Word) : Bool := w &&& r.mask == r.pattern

/-- The row of an instruction. -/
def opcodeRow : Instr → OpRow
  | .cls => ⟨"CLS", 0xFFFF, 0x00E0⟩
  | .ret => ⟨"RET", 0xFFFF, 0x00EE⟩
  | .jp _ => ⟨"JP_NNN", 0xF000, 0x1000⟩
  | .call _ => ⟨"CALL_NNN", 0xF000, 0x2000⟩
  | .seImm _ _ => ⟨"SE_VX_NN", 0xF000, 0x3000⟩
  | .sneImm _ _ => ⟨"SNE_VX_NN", 0xF000, 0x4000⟩
  | .seReg _ _ => ⟨"SE_VX_VY", 0xF00F, 0x5000⟩
  | .ldImm _ _ => ⟨"LD_VX_NN", 0xF000, 0x6000⟩
  | .addImm _ _ => ⟨"ADD_VX_NN", 0xF000, 0x7000⟩
  | .ldReg _ _ => ⟨"LD_VX_VY", 0xF00F, 0x8000⟩
  | .orReg _ _ => ⟨"OR_VX_VY", 0xF00F, 0x8001⟩
  | .andReg _ _ => ⟨"AND_VX_VY", 0xF00F, 0x8002⟩
  | .xorReg _ _ => ⟨"XOR_VX_VY", 0xF00F, 0x8003⟩
  | .addReg _ _ => ⟨"ADD_VX_VY", 0xF00F, 0x8004⟩
  | .sub _ _ => ⟨"SUB_VX_VY", 0xF00F, 0x8005⟩
  | .shr _ _ => ⟨"SHR_VX_VY", 0xF00F, 0x8006⟩
  | .subn _ _ => ⟨"SUBN_VX_VY", 0xF00F, 0x8007⟩
  | .shl _ _ => ⟨"SHL_VX_VY", 0xF00F, 0x800E⟩
  | .sneReg _ _ => ⟨"SNE_VX_VY", 0xF00F, 0x9000⟩
  | .ldI _ => ⟨"LD_I_NNN", 0xF000, 0xA000⟩
  | .jpV0 _ => ⟨"JP_V0_NNN", 0xF000, 0xB000⟩
  | .rnd _ _ => ⟨"RND_VX_NN", 0xF000, 0xC000⟩
  | .drw _ _ _ => ⟨"DRW_VX_VY_N", 0xF000, 0xD000⟩
  | .skp _ => ⟨"SKP_VX", 0xF0FF, 0xE09E⟩
  | .sknp _ => ⟨"SKNP_VX", 0xF0FF, 0xE0A1⟩
  | .ldVxDt _ => ⟨"LD_VX_DT", 0xF0FF, 0xF007⟩
  | .ldVxK _ => ⟨"LD_VX_K", 0xF0FF, 0xF00A⟩
  | .ldDtVx _ => ⟨"LD_DT_VX", 0xF0FF, 0xF015⟩
  | .ldStVx _ => ⟨"LD_ST_VX", 0xF0FF, 0xF018⟩
  | .addI _ => ⟨"ADD_I_VX", 0xF0FF, 0xF01E⟩
  | .ldF _ => ⟨"LD_F_VX", 0xF0FF, 0xF029⟩
  | .ldB _ => ⟨"LD_B_VX", 0xF0FF, 0xF033⟩
  | .storeRegs _ => ⟨"LD__I__VX", 0xF0FF, 0xF055⟩
  | .loadRegs _ => ⟨"LD_VX__I", 0xF0FF, 0xF065⟩

/-- The 34 rows, in the table's order. -/
def opcodeTable : List OpRow :=
  [opcodeRow .cls, opcodeRow .ret, opcodeRow (.jp 0), opcodeRow (.call 0), opcodeRow (.seImm 0 0), opcodeRow (.sneImm 0 0),
   opcodeRow (.seReg 0 0), opcodeRow (.ldImm 0 0), opcodeRow (.addImm 0 0)] ++
  [opcodeRow (.ldReg 0 0), opcodeRow (.orReg 0 0), opcodeRow (.andReg 0 0), opcodeRow (.xorReg 0 0), opcodeRow (.addReg 0 0),
   opcodeRow (.sub 0 0), opcodeRow (.shr 0 0), opcodeRow (.subn 0 0), opcodeRow (.shl 0 0), opcodeRow (.sneReg 0 0)] ++
  [opcodeRow (.ldI 0), opcodeRow (.jpV0 0), opcodeRow (.rnd 0 0), opcodeRow (.drw 0 0 0), opcodeRow (.skp 0),
   opcodeRow (.sknp 0)] ++
  [opcodeRow (.ldVxDt 0), opcodeRow (.ldVxK 0), opcodeRow (.ldDtVx 0), opcodeRow (.ldStVx 0), opcodeRow (.addI 0),
   opcodeRow (.ldF 0), opcodeRow (.ldB 0), opcodeRow (.storeRegs 0), opcodeRow (.loadRegs 0)]

/-! ## The host's view -/

/-- The instruction the decoder reads from the table's bits `w` of a row of `nbits` bits. The table's bit 0 is the least
significant bit of the one 16-bit word; the bits from `nbits` on are 0. -/
def decodeTableWord (nbits w : Nat) : Option Instr :=
  match decodeBytes (wordBytes (BitVec.ofNat 16 (w % 2 ^ nbits))) with
  | .word (.instr i) _ => some i
  | .word (.unknown _) _ => none
  | .truncated => none

end Sys2Proof
end

