-- ==== Sys2Proof/Config.lean ====
section
/-! DEFINITION. The implementation parameters of 00_scope.md R5–R11 and the one free value of the machine.

A model takes each parameter as an argument (00_scope.md, section 3). The step's type is fixed, so the parameters travel
in the state's field `cfg`, which nothing changes (DESIGN CHOICE, log 1: safe, every statement holds for every value).
The default values are in Machine/Defaults.lean, the legal ranges in WellFormed.lean. -/

namespace Sys2Proof

/-- UNKNOWN_POLICY: what a word matching no row of the opcode table does (R8, R54). -/
inductive UnknownPolicy where
  | nop
  | fault
deriving DecidableEq, Repr

/-- SHIFT_VF_ORDER: which write of SHR and SHL comes last (R10, R68). -/
inductive ShiftVfOrder where
  | flagThenDest
  | destThenFlag
deriving DecidableEq, Repr

/-- The parameters R5–R11. -/
structure Config where
  /-- MEM_SIZE, the memory length in bytes (R5). -/
  memSize : Nat
  /-- W, the display width in pixels (R6). -/
  width : Nat
  /-- H, the display height in pixels (R6). -/
  height : Nat
  /-- STACK_DEPTH, the most return addresses the call stack holds (R7). -/
  stackDepth : Nat
  /-- UNKNOWN_POLICY (R8). -/
  unknownPolicy : UnknownPolicy
  /-- DRAW_VWRAP: sprite rows below the bottom edge wrap to the top (R9). -/
  drawVWrap : Bool
  /-- SHIFT_VF_ORDER (R10). -/
  shiftVfOrder : ShiftVfOrder
  /-- FONT, the 80-byte glyph table (R11). -/
  font : Vector Byte 80
deriving DecidableEq, Repr

/-- BPR, the number of frame-buffer bytes in one display row (R6). -/
def Config.bytesPerRow (c : Config) : Nat := c.width / 8

/-- The number of frame-buffer bytes, W·H/8 (R31). -/
def Config.fbBytes (c : Config) : Nat := c.width * c.height / 8

/-- The random byte of the n-th draw where the host's supply is not given (41_alu.md R80: "a free input of the step with no
law"). It has no body, so nothing can be proved of its value or of two draws' relation (log 8: safe). -/
opaque Config.freeRnd : Nat → Byte

end Sys2Proof
end

