-- ==== Sys2Proof/Machine/Defaults.lean ====
section
/-! DEFINITION. The default parameter values (00_scope.md R5–R11) and the default font (70_reset_and_hazards.md R122).

They are the spec's defaults, which the spec itself takes partly from general knowledge (W, H, the glyph bytes; log 2: unsafe for
a claim that names a value). Every rule of the model reads them through the state's `cfg` only. -/

namespace Sys2Proof

/-- R122: the default FONT, digits 0 to 7, glyph d at 5·d, top row first. -/
def glyphsLow : List Byte :=
  [0xF0, 0x90, 0x90, 0x90, 0xF0,   0x20, 0x60, 0x20, 0x20, 0x70,
   0xF0, 0x10, 0xF0, 0x80, 0xF0,   0xF0, 0x10, 0xF0, 0x10, 0xF0,
   0x90, 0x90, 0xF0, 0x10, 0x10,   0xF0, 0x80, 0xF0, 0x10, 0xF0,
   0xF0, 0x80, 0xF0, 0x90, 0xF0,   0xF0, 0x10, 0x20, 0x40, 0x40]

/-- R122: the default FONT, digits 8 to F. -/
def glyphsHigh : List Byte :=
  [0xF0, 0x90, 0xF0, 0x90, 0xF0,   0xF0, 0x90, 0xF0, 0x10, 0xF0,
   0xF0, 0x90, 0xF0, 0x90, 0x90,   0xE0, 0x90, 0xE0, 0x90, 0xE0,
   0xF0, 0x80, 0x80, 0x80, 0xF0,   0xE0, 0x90, 0x90, 0x90, 0xE0,
   0xF0, 0x80, 0xF0, 0x80, 0xF0,   0xF0, 0x80, 0xF0, 0x80, 0x80]

/-- R122: the default FONT table. -/
def defaultFont : Vector Byte 80 := ⟨(glyphsLow ++ glyphsHigh).toArray, rfl⟩

/-- The default parameters (R5–R11). -/
def defaultConfig : Config where
  memSize := 4096
  width := 64
  height := 32
  stackDepth := 16
  unknownPolicy := .nop
  drawVWrap := false
  shiftVfOrder := .flagThenDest
  font := defaultFont

end Sys2Proof
end

