-- ==== Sys2Proof/Machine/State.lean ====
section
/-! DEFINITION. The state of the block (10_state.md R18–R34), its fault codes (60_exceptions.md R105) and its state after
construction (70_reset_and_hazards.md R120). -/

namespace Sys2Proof.Machine

/-- The fault codes of R105. A fault is a terminal STATE of the block (R106): a step that raises one answers a next state whose
`fault` field holds the code. -/
inductive FaultCode where
  /-- 1: `PC + 1 ≥ MEM_SIZE` at fetch; raised by every tick. -/
  | fetchRange
  /-- 2: a data read address past memory; raised by DRW and LD VX,[I]. -/
  | memReadRange
  /-- 3: a data write address past memory; raised by LD B,VX and LD [I],VX. -/
  | memWriteRange
  /-- 4: "return with no matching call"; raised by RET. -/
  | stackUnderflow
  /-- 5: "nesting beyond the bounded stack depth"; raised by CALL. -/
  | stackOverflow
  /-- 6: key number VX > 15; raised by SKP and SKNP. -/
  | keyRange
  /-- 7: font digit VX > 15; raised by LD F,VX. -/
  | fontRange
  /-- 8: an unknown word under UNKNOWN_POLICY = fault. -/
  | illegalOpcode
deriving DecidableEq, Repr

/-- Reasons for which the model itself stops with a fault outcome: none. Every fault of the spec is a next state that holds the
fault record (R106; log 5: safe), and no instruction of the table is without an effect, so this type has no constructor. -/
inductive Fault where
deriving DecidableEq, Repr

/-- Reasons for which the model refuses. `notModelled` is an arm of `exec` without a meaning: there is none. The others are
raised by the host ports only (Ports.lean), never by a step, where the spec itself says that the block refuses the host's call;
each is safe, since the call then has no next state. -/
inductive Refusal where
  /-- An instruction without a meaning, by its table mnemonic; raised by no arm. -/
  | notModelled (mnemonic : String)
  /-- `set_pressed(k)` or `set_released(k)` with k outside 0–15: "a host error: the spec refuses it" (R113); safe. -/
  | keyLineRange (k : Nat)
  /-- `screen_value(x, y)` outside the display: "a host error: the spec refuses it" (R115); safe. -/
  | pixelRange (x y : Nat)
  /-- `construct(program)` with a program longer than MEM_SIZE − 512 bytes: "Construction refuses it" (R123); safe. -/
  | programTooLong (len : Nat)
  /-- `construct(program)` with parameters outside the legal ranges of R5–R7: no such block exists (log 11); safe. -/
  | illegalParameters
deriving DecidableEq, Repr

/-- The block's state. The comment of each field names the spec's state element and its rule. -/
structure State where
  /-- The parameters R5–R11, carried here because the step takes no other argument (log 1). Nothing writes them. -/
  cfg : Config
  /-- V0–VF, 8 bits each (R18, R19). -/
  v : Vector Byte 16
  /-- I, the index register (R20). -/
  i : Word
  /-- PC, the program counter (R21). -/
  pc : Word
  /-- The call stack, the last pushed entry first (R22). -/
  stack : List Word
  /-- DT, the delay timer (R24). -/
  dt : Byte
  /-- ST, the sound timer (R25). -/
  st : Byte
  /-- Key[0..15], true = pressed (R26). -/
  keys : Vector Bool 16
  /-- KWAIT, "waiting for key release" (R27). -/
  kwait : Bool
  /-- FC, "frame changed this cycle" (R28). -/
  fc : Bool
  /-- FINISHED (R29). -/
  finished : Bool
  /-- FAULT: NONE or a fault code (R30). -/
  fault : Option FaultCode
  /-- FAULT_PC (R30). -/
  faultPc : Word
  /-- FAULT_INFO, 17 bits (R30). -/
  faultInfo : FaultInfo
  /-- FB, the frame buffer's W·H/8 bytes in index order (R31). -/
  fb : List Byte
  /-- Mem, the bytes that differ from the construction contents, in rising address order (R32, R35; log 4). -/
  mem : List Host.Cell
  /-- The model's own: the bytes the host has placed on the `rnd` port for the coming draws (R80, R112, R116; log 8). -/
  rndIn : List Byte
  /-- The model's own: how many draws were made, the index of the next free random byte (log 8). -/
  rndDraws : Nat
  /-- The model's own: the DIAG(w) event of the tick just completed (R54, R117; log 9). No instruction reads it. -/
  diag : Option Word
deriving DecidableEq, Repr

/-- What a step, an instruction or a port answers. -/
abbrev Result := Host.Outcome State Fault Refusal

/-- The state after `construct` of the empty program under the parameters `c` (R120, R121). -/
def State.initial (c : Config) : State where
  cfg := c
  v := Vector.replicate 16 0
  i := 0
  pc := 0x0200
  stack := []
  dt := 0
  st := 0
  keys := Vector.replicate 16 false
  kwait := false
  fc := false
  finished := false
  fault := none
  faultPc := 0
  faultInfo := 0
  fb := List.replicate c.fbBytes 0
  mem := []
  rndIn := []
  rndDraws := 0
  diag := none

/-- The machine right after reset: R120 with the default parameters. -/
def State.reset : State := State.initial defaultConfig

end Sys2Proof.Machine
end

