-- ==== Sys2Proof/Machine/Ops.lean ====
section
/-! DEFINITION. The named operations over the state: the primitives of 00_scope.md R15, the call stack (10_state.md R23), the byte
memory (20_memory.md), the random input (R80) and `raise Fault(code)` (60_exceptions.md R106). -/

namespace Sys2Proof.Machine

/-! ## Registers (R15, R18) -/

/-- `V[r]`. -/
def State.getV (s : State) (r : Reg) : Byte := s.v[r.toNat]'r.isLt

/-- `V[r] <- b`. No register is hardwired (R18). -/
def State.setV (s : State) (r : Reg) (b : Byte) : State := { s with v := s.v.set r.toNat b r.isLt }

/-- `I <- a`. -/
def State.setI (s : State) (a : Word) : State := { s with i := a }

/-- `pc <- target`. -/
def State.setPc (s : State) (a : Word) : State := { s with pc := a }

/-- `DT <- b`. -/
def State.setDt (s : State) (b : Byte) : State := { s with dt := b }

/-- `ST <- b`. -/
def State.setSt (s : State) (b : Byte) : State := { s with st := b }

/-- `KWAIT <- b`. -/
def State.setKwait (s : State) (b : Bool) : State := { s with kwait := b }

/-- `FINISHED <- b`. -/
def State.setFinished (s : State) (b : Bool) : State := { s with finished := b }

/-- Replace the call stack. -/
def State.setStack (s : State) (l : List Word) : State := { s with stack := l }

/-- Replace the frame buffer. -/
def State.setFb (s : State) (l : List Byte) : State := { s with fb := l }

/-- `FC <- b`. -/
def State.setFc (s : State) (b : Bool) : State := { s with fc := b }

/-- The default advance: `pc <- (p + 2) mod 65536` (R58). -/
def State.advance (s : State) : State := s.setPc (s.pc + 2)

/-- Skip: `p + 4` when the condition holds, else `p + 2` (R58). -/
def State.skipIf (s : State) (c : Bool) : State := if c then s.setPc (s.pc + 4) else s.advance

/-! ## Raising a fault (R106)

The one exception entry of the machine. There is no return from it: "There is no trap entry and no trap return" and "Only a new
construction leaves the fault state" (R106, R108), so no operation clears a fault. -/

/-- `raise Fault(code)`: FAULT, FAULT_PC = p and FAULT_INFO are written and PC stays p. An instruction raises before it writes PC,
so p is the PC here. -/
def State.raise (s : State) (code : FaultCode) (info : FaultInfo) : State :=
  { s with fault := some code, faultPc := s.pc, faultInfo := info }

/-- FAULT_INFO for a fault that records nothing (R105 "—"): 0, by the vectors CT1 and CT4 (log 6). -/
def noInfo : FaultInfo := 0

/-- FAULT_INFO for a recorded number; an address is at most 65536 (R30). -/
def infoOf (n : Nat) : FaultInfo := BitVec.ofNat 17 n

/-! ## The call stack (R23) -/

/-- `Push(v)`: none where the stack already holds STACK_DEPTH entries. -/
def State.push (s : State) (a : Word) : Option State :=
  if s.cfg.stackDepth ≤ s.stack.length then none else some (s.setStack (a :: s.stack))

/-- `Pop()`: none where the stack is empty. -/
def State.pop (s : State) : Option (Word × State) :=
  match s.stack with
  | [] => none
  | a :: rest => some (a, s.setStack rest)

/-! ## Memory (R35–R49) -/

/-- What an address reads as where nothing has written it and no program was placed: FONT at 0–79, 0x00 above (R121, D6). -/
def resetByte (c : Config) (a : Nat) : Byte := if h : a < 80 then c.font[a] else 0

/-- The byte a list of cells gives an address, if it lists it. -/
def Memory.lookup (a : Nat) : List Host.Cell → Option Byte
  | [] => none
  | (b, x) :: rest => if a = b then some x else Memory.lookup a rest

/-- Put a byte at an address, keeping the addresses rising. -/
def Memory.insert (a : Nat) (x : Byte) : List Host.Cell → List Host.Cell
  | [] => [(a, x)]
  | (b, y) :: rest =>
    if a < b then (a, x) :: (b, y) :: rest
    else if a = b then (a, x) :: rest
    else (b, y) :: Memory.insert a x rest

/-- Drop the entry of an address. -/
def Memory.erase (a : Nat) : List Host.Cell → List Host.Cell
  | [] => []
  | (b, y) :: rest => if a = b then rest else (b, y) :: Memory.erase a rest

/-- Write a byte, keeping the canonical form: a byte equal to what an unlisted address reads as is not listed. -/
def Memory.write (c : Config) (a : Nat) (x : Byte) (m : List Host.Cell) : List Host.Cell :=
  if x = resetByte c a then Memory.erase a m else Memory.insert a x m

/-- The canonical form: addresses strictly rising, inside memory, and no entry equal to what an unlisted address reads as. -/
abbrev Memory.Wf (c : Config) (m : List Host.Cell) : Prop :=
  m.Pairwise (fun p q => p.1 < q.1) ∧ (∀ p ∈ m, p.2 ≠ resetByte c p.1) ∧ (∀ p ∈ m, p.1 < c.memSize)

/-- `Mem[a]`, the range check left out. -/
def State.byteAt (s : State) (a : Nat) : Byte := (Memory.lookup a s.mem).getD (resetByte s.cfg a)

/-- `MemRead(a, 1)`: none where `a ≥ MEM_SIZE` (R37). -/
def State.memRead (s : State) (a : Nat) : Option Byte := if a < s.cfg.memSize then some (s.byteAt a) else none

/-- `MemRead(base, n)`, the range read of the sprite: none where `base + n > MEM_SIZE` (R15, R37). -/
def State.memReadRange (s : State) (base n : Nat) : Option (List Byte) :=
  if base + n ≤ s.cfg.memSize then some ((List.range n).map fun k => s.byteAt (base + k)) else none

/-- Replace the byte at an address, the range check left out. -/
def State.setByte (s : State) (a : Nat) (x : Byte) : State := { s with mem := Memory.write s.cfg a x s.mem }

/-- `MemWrite(a, 1, x)`: none where `a ≥ MEM_SIZE` (R37). -/
def State.memWrite (s : State) (a : Nat) (x : Byte) : Option State :=
  if a < s.cfg.memSize then some (s.setByte a x) else none

/-- `Fetch16(a)`: big-endian, none where `a + 1 ≥ MEM_SIZE` (R38). -/
def State.fetch16 (s : State) (a : Nat) : Option Word :=
  if a + 1 < s.cfg.memSize then some (composeWord (s.byteAt a) (s.byteAt (a + 1))) else none

/-- The writes of FX33 and FX55: one byte an address, lowest first, up to the first address past memory, which is answered beside
the state with the earlier writes kept (R84, R85, R106). -/
def State.storeBytes (base : Nat) : List Byte → State → State × Option Nat
  | [], s => (s, none)
  | x :: xs, s =>
    match s.memWrite base x with
    | none => (s, some base)
    | some s' => State.storeBytes (base + 1) xs s'

/-- The loads of FX65: register r from `base + r`, lowest first, up to the first address past memory, which is answered beside the
state with the earlier registers loaded (R86, R106). -/
def State.loadBytes (base : Nat) : List Reg → State → State × Option Nat
  | [], s => (s, none)
  | r :: rs, s =>
    match s.memRead (base + r.toNat) with
    | none => (s, some (base + r.toNat))
    | some x => State.loadBytes base rs (s.setV r x)

/-! ## The random input (R80, R112, R116) -/

/-- `Rnd()`: the byte the host has placed on the `rnd` port, or a free one. -/
def State.rndByte (s : State) : Byte := s.rndIn.headD (Config.freeRnd s.rndDraws)

/-- The state after one draw. -/
def State.afterDraw (s : State) : State := { s with rndIn := s.rndIn.tail, rndDraws := s.rndDraws + 1 }

end Sys2Proof.Machine
end

