-- ==== Sys2Proof/Machine/Operands.lean ====
section
/-! DEFINITION. Operand forms: the immediates (30_encoding.md R51), the index register with an offset (42_index_memory.md) and the
register ranges of FX55 and FX65. A register operand X or Y is `State.getV`. -/

namespace Sys2Proof.Machine

/-- `zext_16(NNN)`: NNN "zero-extended to 16 bits where it meets PC or I" (R51). -/
def zext16 (nnn : Addr12) : Word := nnn.setWidth 16

/-- A byte widened to 16 bits with zero high bits (R13). -/
def zextByte (b : Byte) : Word := b.setWidth 16

/-- The base address in I as an unbounded number: an effective address I + k never wraps (R37). -/
def State.base (s : State) : Nat := s.i.toNat

/-- Registers V0 .. VX in increasing order (R85, R86). -/
def regsUpTo (x : Reg) : List Reg := (List.range (x.toNat + 1)).map (BitVec.ofNat 4)

/-- The values of V0 .. VX in increasing order (R85). -/
def State.valuesUpTo (s : State) (x : Reg) : List Byte := (regsUpTo x).map s.getV

/-- `(base + X + 1) mod 65536`, the I that FX55 and FX65 leave (R85, R86). -/
def State.indexPast (s : State) (x : Reg) : Word := s.i + BitVec.ofNat 16 (x.toNat + 1)

/-- The three decimal digits of a byte, hundreds first (R84). -/
def bcdDigits (b : Byte) : List Byte :=
  [BitVec.ofNat 8 (b.toNat / 100), BitVec.ofNat 8 (b.toNat / 10 % 10), BitVec.ofNat 8 (b.toNat % 10)]

/-- `address_of(d) = 5·d` (R43). -/
def glyphAddress (d : Byte) : Word := BitVec.ofNat 16 (5 * d.toNat)

/-- FAULT_INFO of a memory range fault: "the first out-of-range address: max(base, MEM_SIZE)" (R105). -/
def State.rangeInfo (s : State) : FaultInfo := infoOf (max s.base s.cfg.memSize)

end Sys2Proof.Machine
end

