-- ==== Sys2Proof/Machine/Flags.lean ====
section
/-! DEFINITION. The values the flag register VF receives (10_state.md R19, 41_alu.md) and the order of the result and flag writes
(R68). VF is general register 15. -/

namespace Sys2Proof.Machine

/-- VF, register 15 (R19). -/
def vf : Reg := 15

/-- A flag as the byte VF holds: 1 or 0. -/
def flagByte (b : Bool) : Byte := if b then 1 else 0

/-- ADD VX,VY: the carry out of bit 7, `a + b > 255` (R75). -/
def carryFlag (a b : Byte) : Byte := flagByte (decide (255 < a.toNat + b.toNat))

/-- SUB and SUBN: 1 if no borrow occurred in `a − b`, that is `a ≥ b` (R76, R77). -/
def noBorrowFlag (a b : Byte) : Byte := flagByte (decide (b.toNat ≤ a.toNat))

/-- SHR: the bit shifted out at the bottom (R78). -/
def lowBitFlag (b : Byte) : Byte := b &&& 1

/-- SHL: the bit shifted out at the top (R79). -/
def highBitFlag (b : Byte) : Byte := (b >>> 7) &&& 1

/-- The result, then the flag: the flag wins where X = 15 (R68). -/
def State.writeThenFlag (s : State) (x : Reg) (r f : Byte) : State := (s.setV x r).setV vf f

/-- The shifts: the order SHIFT_VF_ORDER says (R68, R78, R79). -/
def State.writeShift (s : State) (x : Reg) (r f : Byte) : State :=
  match s.cfg.shiftVfOrder with
  | .flagThenDest => (s.setV vf f).setV x r
  | .destThenFlag => (s.setV x r).setV vf f

end Sys2Proof.Machine
end

