-- ==== Sys2Proof/Machine/Alu.lean ====
section
/-! DEFINITION. The register-file ALU (41_alu.md R67–R80). Operands are read from the state on entry, before any write (R16); every
instruction here leaves PC at p + 2 and none raises a fault. -/

namespace Sys2Proof.Machine

/-- R69 LD VX,NN. -/
def execLdImm (x : Reg) (nn : Byte) (s : State) : Result := .next (s.setV x nn).advance

/-- R70 ADD VX,NN: wraps, no flag. -/
def execAddImm (x : Reg) (nn : Byte) (s : State) : Result := .next (s.setV x (s.getV x + nn)).advance

/-- R71 LD VX,VY. -/
def execLdReg (x y : Reg) (s : State) : Result := .next (s.setV x (s.getV y)).advance

/-- R72 OR VX,VY: VF := 0. -/
def execOr (x y : Reg) (s : State) : Result := .next (s.writeThenFlag x (s.getV x ||| s.getV y) 0).advance

/-- R73 AND VX,VY: VF := 0. -/
def execAnd (x y : Reg) (s : State) : Result := .next (s.writeThenFlag x (s.getV x &&& s.getV y) 0).advance

/-- R74 XOR VX,VY: VF := 0. -/
def execXor (x y : Reg) (s : State) : Result := .next (s.writeThenFlag x (s.getV x ^^^ s.getV y) 0).advance

/-- R75 ADD VX,VY: VF := carry. -/
def execAddReg (x y : Reg) (s : State) : Result :=
  .next (s.writeThenFlag x (s.getV x + s.getV y) (carryFlag (s.getV x) (s.getV y))).advance

/-- R76 SUB VX,VY: VX − VY, VF := no borrow. -/
def execSub (x y : Reg) (s : State) : Result :=
  .next (s.writeThenFlag x (s.getV x - s.getV y) (noBorrowFlag (s.getV x) (s.getV y))).advance

/-- R77 SUBN VX,VY: VY − VX, VF := no borrow. -/
def execSubn (x y : Reg) (s : State) : Result :=
  .next (s.writeThenFlag x (s.getV y - s.getV x) (noBorrowFlag (s.getV y) (s.getV x))).advance

/-- R78 SHR VX,VY: VX := VY >> 1, VF := bit 0 of VY. -/
def execShr (x y : Reg) (s : State) : Result :=
  .next (s.writeShift x (s.getV y >>> 1) (lowBitFlag (s.getV y))).advance

/-- R79 SHL VX,VY: VX := (VY << 1) mod 256, VF := bit 7 of VY (C1). -/
def execShl (x y : Reg) (s : State) : Result :=
  .next (s.writeShift x (s.getV y <<< 1) (highBitFlag (s.getV y))).advance

/-- R80 RND VX,NN: one draw, combined by exclusive or. -/
def execRnd (x : Reg) (nn : Byte) (s : State) : Result := .next (s.afterDraw.setV x (s.rndByte ^^^ nn)).advance

end Sys2Proof.Machine
end

