-- ==== Sys2Proof/Machine/Control.lean ====
section
/-! DEFINITION. Control transfer (40_control.md R59–R66). On entry PC holds p, the address the word was fetched from (R57). -/

namespace Sys2Proof.Machine

/-- R59 RET: `r <- Pop(); pc <- (r + 2) mod 65536`; STACK_UNDERFLOW on an empty stack. -/
def execRet (s : State) : Result :=
  match s.pop with
  | none => .next (s.raise .stackUnderflow noInfo)
  | some (r, s') => .next (s'.setPc (r + 2))

/-- R60 JP NNN: `pc <- zext_16(NNN)`. -/
def execJp (nnn : Addr12) (s : State) : Result := .next (s.setPc (zext16 nnn))

/-- R61 CALL NNN: `Push(p); pc <- zext_16(NNN)`; STACK_OVERFLOW, with PC not written, on a full stack. -/
def execCall (nnn : Addr12) (s : State) : Result :=
  match s.push s.pc with
  | none => .next (s.raise .stackOverflow noInfo)
  | some s' => .next (s'.setPc (zext16 nnn))

/-- R62 SE VX,NN. -/
def execSeImm (x : Reg) (nn : Byte) (s : State) : Result := .next (s.skipIf (s.getV x == nn))

/-- R63 SNE VX,NN. -/
def execSneImm (x : Reg) (nn : Byte) (s : State) : Result := .next (s.skipIf (s.getV x != nn))

/-- R64 SE VX,VY. -/
def execSeReg (x y : Reg) (s : State) : Result := .next (s.skipIf (s.getV x == s.getV y))

/-- R65 SNE VX,VY. -/
def execSneReg (x y : Reg) (s : State) : Result := .next (s.skipIf (s.getV x != s.getV y))

/-- R66 JP V0,NNN: `pc <- V[0] + NNN`, not truncated to 12 bits. -/
def execJpV0 (nnn : Addr12) (s : State) : Result := .next (s.setPc (zextByte (s.getV 0) + zext16 nnn))

end Sys2Proof.Machine
end

