-- ==== Sys2Proof/Machine/Display.lean ====
section
/-! DEFINITION. The frame-buffer sprite blitter and collision detector (43_display.md R87–R95). The frame buffer is the list of its
bytes in index order (R31). -/

namespace Sys2Proof.Machine

/-- What the blitter works on: the frame-buffer bytes, and whether a collision was seen so far. -/
structure Canvas where
  fb : List Byte
  collided : Bool
deriving DecidableEq, Repr

/-- R88 XorByte(b, m): exclusive or into byte b; a lane that was set and is now clear is a collision. An index past the frame
buffer does not arise where the buffer has its W·H/8 bytes (log 10). -/
def Canvas.xorByte (k : Canvas) (b : Nat) (m : Byte) : Canvas :=
  let old := k.fb.getD b 0
  let new := old ^^^ m
  { fb := k.fb.set b new, collided := k.collided || (old &&& ~~~new) != 0 }

/-- R89, R90: one sprite row at pixel column x0 of display row yy. The row byte is split over two byte columns unless the column is
byte-aligned; the second wraps within the row and is left out only where it is the first byte's own column (W = 8). -/
def Canvas.blitRow (k : Canvas) (c : Config) (x0 yy : Nat) (row : Byte) : Canvas :=
  let s := x0 % 8
  let col := x0 / 8
  let col2 := (col + 1) % c.bytesPerRow
  let k1 := k.xorByte (yy * c.bytesPerRow + col) (row >>> s)
  if s ≠ 0 ∧ col2 ≠ col then k1.xorByte (yy * c.bytesPerRow + col2) (row <<< (8 - s)) else k1

/-- R89, R91: the display row of sprite row r, or none where it falls past the bottom edge and is dropped. -/
def rowTarget (c : Config) (y0 r : Nat) : Option Nat :=
  if y0 + r < c.height then some (y0 + r) else if c.drawVWrap then some ((y0 + r) % c.height) else none

/-- R89: sprite rows r, r + 1, … in increasing order. -/
def Canvas.blitRows (c : Config) (x0 y0 : Nat) : Nat → List Byte → Canvas → Canvas
  | _, [], k => k
  | r, row :: rows, k =>
    Canvas.blitRows c x0 y0 (r + 1) rows
      (match rowTarget c y0 r with
       | none => k
       | some yy => k.blitRow c x0 yy row)

/-- R87, R89: Blit(x, y, S), the origin reduced modulo the display first. -/
def blit (c : Config) (x y : Nat) (rows : List Byte) (fb : List Byte) : Canvas :=
  Canvas.blitRows c (x % c.width) (y % c.height) 0 rows ⟨fb, false⟩

/-- R92 Clear(): every frame-buffer byte 0x00. -/
def clearFb (fb : List Byte) : List Byte := fb.map fun _ => 0

/-- R31, R93: pixel (x, y) is bit `7 − (x mod 8)` of `FB[y·BPR + x div 8]`. -/
def pixelOf (c : Config) (fb : List Byte) (x y : Nat) : Bool :=
  (fb.getD (y * c.bytesPerRow + x / 8) 0).getLsbD (7 - x % 8)

/-- R94 CLS: clears the display and sets neither VF nor FC (C8). -/
def execCls (s : State) : Result := .next (s.setFb (clearFb s.fb)).advance

/-- The state after the blit of R95: FB, VF := 1 on a collision only, and FC := 1. -/
def State.applyCanvas (s : State) (k : Canvas) : State :=
  let t := (s.setFb k.fb).setFc true
  if k.collided then t.setV vf 1 else t

/-- R95 DRW VX,VY,N: the whole range is read before any frame-buffer write; MEM_READ_RANGE where I + N > MEM_SIZE. -/
def execDrw (x y : Reg) (n : Nibble) (s : State) : Result :=
  match s.memReadRange s.base n.toNat with
  | none => .next (s.raise .memReadRange s.rangeInfo)
  | some rows => .next (s.applyCanvas (blit s.cfg (s.getV x).toNat (s.getV y).toNat rows s.fb)).advance

end Sys2Proof.Machine
end

