-- ==== Sys2Proof/Machine/IndexMemory.lean ====
section
/-! DEFINITION. Index register and memory instructions (42_index_memory.md R81–R86). Effective addresses are unbounded numbers
checked against MEM_SIZE (R37). -/

namespace Sys2Proof.Machine

/-- R81 LD I,NNN. -/
def execLdI (nnn : Addr12) (s : State) : Result := .next (s.setI (zext16 nnn)).advance

/-- R82 ADD I,VX: modulo 65536, no flag. -/
def execAddI (x : Reg) (s : State) : Result := .next (s.setI (s.i + zextByte (s.getV x))).advance

/-- R83 LD F,VX: `I <- 5·VX`; FONT_RANGE, recording VX, where VX > 15. -/
def execLdF (x : Reg) (s : State) : Result :=
  if 15 < (s.getV x).toNat then .next (s.raise .fontRange (infoOf (s.getV x).toNat))
  else .next (s.setI (glyphAddress (s.getV x))).advance

/-- R84 LD B,VX: the decimal digits of VX at I, I + 1, I + 2; I is not changed. -/
def execLdB (x : Reg) (s : State) : Result :=
  match s.storeBytes s.base (bcdDigits (s.getV x)) with
  | (t, none) => .next t.advance
  | (t, some _) => .next (t.raise .memWriteRange s.rangeInfo)

/-- R85 LD [I],VX: V0..VX at I upwards, then `I <- (base + X + 1) mod 65536`; I is not updated on a fault. -/
def execStoreRegs (x : Reg) (s : State) : Result :=
  match s.storeBytes s.base (s.valuesUpTo x) with
  | (t, none) => .next (t.setI (s.indexPast x)).advance
  | (t, some _) => .next (t.raise .memWriteRange s.rangeInfo)

/-- R86 LD VX,[I]: V0..VX from I upwards, then `I <- (base + X + 1) mod 65536`; I is not updated on a fault. -/
def execLoadRegs (x : Reg) (s : State) : Result :=
  match s.loadBytes s.base (regsUpTo x) with
  | (t, none) => .next (t.setI (s.indexPast x)).advance
  | (t, some _) => .next (t.raise .memReadRange s.rangeInfo)

end Sys2Proof.Machine
end

