-- ==== Sys2Proof/Machine/TimersKeys.lean ====
section
/-! DEFINITION. The timers, the key lines and the blocking key read (44_timers_keys.md R96–R104). -/

namespace Sys2Proof.Machine

/-- R96: a timer decays by one, floored at 0. -/
def decay (b : Byte) : Byte := if b = 0 then 0 else b - 1

/-- `Key[k]` (R26, R98). -/
def State.key (s : State) (k : Fin 16) : Bool := s.keys[k.val]

/-- The lowest k with `Key[k] == 1`, if any key is pressed (R102). -/
def State.lowestKey (s : State) : Option (Fin 16) := (List.finRange 16).find? s.key

/-- The key number in a register, if it is one of 0–15 (R99, R100). -/
def keyNumber (b : Byte) : Option (Fin 16) := if h : b.toNat < 16 then some ⟨b.toNat, h⟩ else none

/-- R99 SKP VX; KEY_RANGE, recording VX, where VX > 15. -/
def execSkp (x : Reg) (s : State) : Result :=
  match keyNumber (s.getV x) with
  | none => .next (s.raise .keyRange (infoOf (s.getV x).toNat))
  | some k => .next (s.skipIf (s.key k))

/-- R100 SKNP VX; KEY_RANGE, recording VX, where VX > 15. -/
def execSknp (x : Reg) (s : State) : Result :=
  match keyNumber (s.getV x) with
  | none => .next (s.raise .keyRange (infoOf (s.getV x).toNat))
  | some k => .next (s.skipIf (!s.key k))

/-- R101 LD VX,DT: DT has already decayed in this tick. -/
def execLdVxDt (x : Reg) (s : State) : Result := .next (s.setV x s.dt).advance

/-- R102 LD VX,K. With KWAIT = 0 it stalls until some key is pressed, then latches the lowest into VX, sets KWAIT and stalls again;
with KWAIT = 1 it stalls until all keys are released, then clears KWAIT and goes on. A stall leaves PC at p. -/
def execLdVxK (x : Reg) (s : State) : Result :=
  match s.kwait, s.lowestKey with
  | false, none => .next s
  | false, some k => .next ((s.setV x (BitVec.ofNat 8 k.val)).setKwait true)
  | true, some _ => .next s
  | true, none => .next (s.setKwait false).advance

/-- R103 LD DT,VX. -/
def execLdDtVx (x : Reg) (s : State) : Result := .next (s.setDt (s.getV x)).advance

/-- R104 LD ST,VX. -/
def execLdStVx (x : Reg) (s : State) : Result := .next (s.setSt (s.getV x)).advance

end Sys2Proof.Machine
end

