-- ==== Sys2Proof/Machine/Tick.lean ====
section
/-! DEFINITION. The tick cycle (30_encoding.md R54, R57), piece by piece. Step.lean only calls it. -/

namespace Sys2Proof.Machine

/-- The start of a tick: TimerDecay() and `FC <- 0` (R57, R96). The DIAG event of the tick before is over (log 9). -/
def State.tickBegin (s : State) : State :=
  { s with dt := decay s.dt, st := decay s.st, fc := false, diag := none }

/-- The instruction is JP NNN with NNN equal to the address it was fetched from (R29, R57). -/
def isSelfJump (i : Instr) (p : Word) : Bool :=
  match i with
  | .jp nnn => zext16 nnn == p
  | _ => false

/-- The end of a tick: FINISHED is updated unless the instruction raised a fault, which ends the tick at once (R57, R106; log 7). -/
def tickEnd (finished : Bool) : Result → Result
  | .next t => .next (if t.fault.isSome then t else t.setFinished finished)
  | .fault r => .fault r
  | .refused r => .refused r

/-- An unknown word (R54): under nop the event DIAG(w) and PC + 2; under fault ILLEGAL_OPCODE, recording w. -/
def execUnknown (w : Word) (s : State) : Result :=
  match s.cfg.unknownPolicy with
  | .nop => .next ({ s with diag := some w } : State).advance
  | .fault => .next (s.raise .illegalOpcode (infoOf w.toNat))

/-- Decode and execute one fetched word, and end the tick. -/
def runWord (w : Word) (s : State) : Result :=
  match decodeWord w with
  | .instr i => tickEnd (isSelfJump i s.pc) (exec i s)
  | .unknown u => tickEnd false (execUnknown u s)

/-- Fetch at PC, then run the word; FETCH_RANGE, recording PC, where the two bytes leave memory (R38, R105). -/
def fetchAndRun (s : State) : Result :=
  match s.fetch16 s.pc.toNat with
  | none => .next (s.raise .fetchRange (infoOf s.pc.toNat))
  | some w => runWord w s

/-- Tick() (R57). A faulted block does not step (R106). -/
def tick (s : State) : Result := if s.fault.isSome then .next s else fetchAndRun s.tickBegin

/-- Place the two bytes of a word at an address. An address past memory holds no byte, so nothing is placed there (log 13). -/
def State.placeWord (s : State) (a : Nat) (w : Word) : State := (s.storeBytes a (wordBytes w)).1

end Sys2Proof.Machine
end

