-- ==== Sys2Proof/Machine/Step.lean ====
section
/-! DEFINITION. The step of the machine: one tick (30_encoding.md R57). -/

namespace Sys2Proof.Machine

/-- One step of the block. -/
def step (s : State) : Host.Outcome State Fault Refusal := tick s

/-- `s` with the instruction of `nbits` bits `w`, as the opcode table numbers them, stored at PC, where the next step fetches.
It stands for the construction of the block with a program that holds the word there (log 13). -/
def State.withFetchWord (s : State) (nbits w : Nat) : State :=
  s.placeWord s.pc.toNat (BitVec.ofNat 16 (w % 2 ^ nbits))

end Sys2Proof.Machine
end

