-- ==== Sys2Proof/WellFormed.lean ====
section
/-! DEFINITION. What is well formed: the legal ranges of the parameters (00_scope.md R5–R7), one named check each.

An instruction needs no check of its own. Each field of `Instr` has exactly its encoded width (R51), every pair of registers
is allowed, and no value of a field is reserved, so every term of `Instr` stands for one instruction word. -/

namespace Sys2Proof

/-- R5: 514 ≤ MEM_SIZE ≤ 65536. -/
def Config.memSizeLegal (c : Config) : Bool := decide (514 ≤ c.memSize ∧ c.memSize ≤ 65536)

/-- R6: W is a multiple of 8 and 8 ≤ W. -/
def Config.widthLegal (c : Config) : Bool := decide (c.width % 8 = 0 ∧ 8 ≤ c.width)

/-- R6: 1 ≤ H. -/
def Config.heightLegal (c : Config) : Bool := decide (1 ≤ c.height)

/-- R6: W·H/8 ≤ 65536. -/
def Config.displayFits (c : Config) : Bool := decide (c.fbBytes ≤ 65536)

/-- R7: STACK_DEPTH ≥ 1. -/
def Config.stackDepthLegal (c : Config) : Bool := decide (1 ≤ c.stackDepth)

/-- All the legal ranges together. A block with other parameter values does not exist. -/
def Config.legal (c : Config) : Bool :=
  c.memSizeLegal && c.widthLegal && c.heightLegal && c.displayFits && c.stackDepthLegal

end Sys2Proof
end

