-- ==== Sys2Proof/Machine/Ports.lean ====
section
/-! DEFINITION. The host interface (60_exceptions.md R112–R117; 70_reset_and_hazards.md R120–R123). The host's calls land between
ticks only (R113), so each is a function of the state apart from the step. -/

namespace Sys2Proof.Machine

/-! ## Construction -/

/-- Place the program bytes from an address on, unchanged (R121). -/
def State.placeProgram (s : State) (program : List Byte) : State := (s.storeBytes 512 program).1

/-- `construct(program)` under the parameters `c` (R120, R121); a program longer than MEM_SIZE − 512 bytes is refused (R123), and
so are parameters that R5–R7 do not allow (log 11). -/
def construct (c : Config) (program : List Byte) : Result :=
  if !c.legal then .refused .illegalParameters
  else if c.memSize - 512 < program.length then .refused (.programTooLong program.length)
  else .next ((State.initial c).placeProgram program)

/-! ## Inputs between ticks -/

/-- Write one key line and nothing else (R113). -/
def State.setKey (s : State) (k : Fin 16) (pressed : Bool) : State := { s with keys := s.keys.set k.val pressed }

/-- Write `Key[k]`; a k outside 0–15 is refused and changes no state (R113). -/
def hostSetKey (k : Nat) (pressed : Bool) (s : State) : Result :=
  if h : k < 16 then .next (s.setKey ⟨k, h⟩ pressed) else .refused (.keyLineRange k)

/-- `set_pressed(k)` (R112, R113). -/
def setPressed (k : Nat) (s : State) : Result := hostSetKey k true s

/-- `set_released(k)` (R112, R113). -/
def setReleased (k : Nat) (s : State) : Result := hostSetKey k false s

/-- The `rnd` port: the host supplies a byte for the next draw not yet supplied (R112, R116; log 8). -/
def supplyRnd (b : Byte) (s : State) : Result := .next { s with rndIn := s.rndIn ++ [b] }

/-! ## Outputs between ticks (R114, R115) -/

/-- `screen_width()`: W. -/
def screenWidth (s : State) : Nat := s.cfg.width

/-- `screen_height()`: H. -/
def screenHeight (s : State) : Nat := s.cfg.height

/-- `screen_value(x, y)`: the pixel of R93; a query outside the display is refused (R115). It changes no state. -/
def screenValue (x y : Nat) (s : State) : Host.Outcome Bool Fault Refusal :=
  if x < s.cfg.width ∧ y < s.cfg.height then .next (pixelOf s.cfg s.fb x y) else .refused (.pixelRange x y)

/-- `has_drawn()`: FC. -/
def hasDrawn (s : State) : Bool := s.fc

/-- `is_beeping()`: ST ≠ 0. -/
def isBeeping (s : State) : Bool := s.st != 0

/-- `is_finished()`: FINISHED. -/
def isFinished (s : State) : Bool := s.finished

/-- The `fault` port: code, FAULT_PC and FAULT_INFO (R106, R112). -/
def faultPort (s : State) : Option FaultCode × Word × FaultInfo := (s.fault, s.faultPc, s.faultInfo)

/-- The DIAG port: the event of the tick just completed (R117). -/
def diagPort (s : State) : Option Word := s.diag

/-- The number of a fault code (R105). -/
def FaultCode.number (f : FaultCode) : Nat :=
  match f with
  | .fetchRange => 1
  | .memReadRange => 2
  | .memWriteRange => 3
  | .stackUnderflow => 4
  | .stackOverflow => 5
  | .keyRange => 6
  | .fontRange => 7
  | .illegalOpcode => 8

/-! ## A run with a host -/

/-- What the host may do next: tick, call a key port, or supply a random byte (R112, R116). -/
inductive HostEvent where
  | tick
  | press (k : Nat)
  | release (k : Nat)
  | supply (b : Byte)
deriving DecidableEq, Repr

/-- One event. -/
def hostEvent (e : HostEvent) (s : State) : Result :=
  match e with
  | .tick => step s
  | .press k => setPressed k s
  | .release k => setReleased k s
  | .supply b => supplyRnd b s

/-- A run: "the sequence of ticks the host delivers" with the host's calls between them (R116, R126). -/
def hostRun : List HostEvent → State → Result
  | [], s => .next s
  | e :: es, s =>
    match hostEvent e s with
    | .next t => hostRun es t
    | .fault r => .fault r
    | .refused r => .refused r

end Sys2Proof.Machine
end

