-- ==== Sys2Proof/Safety.lean ====
section
/-! DEFINITION. The terms claims are stated in: a clean state, the well-formedness of a state, what an instruction leaves unchanged,
and the spec's own descriptions of the faults and of a sprite's pixels, written apart from the machine. -/

namespace Sys2Proof.Machine

/-! ## Clean and well-formed states -/

/-- No fault has been raised. A run is clean while this holds (R106, R126). -/
abbrev State.clean (s : State) : Prop := s.fault = none

/-- What every state of a block satisfies: legal parameters (R5–R7), at most STACK_DEPTH return addresses (R22), W·H/8 frame-buffer
bytes (R31), memory in its canonical form and inside MEM_SIZE (R32), FAULT_INFO at most 65536 (R30), a fault record at its reset
value until a fault is raised (R30, R120), and no DIAG event after a faulting tick (log 7). -/
structure State.Wf (s : State) : Prop where
  legal : s.cfg.legal = true
  stackBound : s.stack.length ≤ s.cfg.stackDepth
  fbSize : s.fb.length = s.cfg.fbBytes
  memWf : Memory.Wf s.cfg s.mem
  infoBound : s.faultInfo.toNat ≤ 65536
  recordClear : s.fault = none → s.faultPc = 0 ∧ s.faultInfo = 0
  diagClear : s.fault ≠ none → s.diag = none

/-- The word at PC is fetched and decodes to `i`. -/
def State.fetches (s : State) (i : Instr) : Prop :=
  ∃ w, s.fetch16 s.pc.toNat = some w ∧ decodeWord w = .instr i

/-- While KWAIT is set, the word at PC is LD VX,K: "The word cannot change during the wait" (C4, R27, R102). -/
def State.KeyWaitWf (s : State) : Prop := s.kwait = true → ∃ x, s.fetches (.ldVxK x)

/-! ## Frames -/

/-- The parts of the state, one for each thing an instruction may change or leave. -/
inductive Part where
  | reg (r : Reg)
  | index
  | pc
  | stack
  | delay
  | sound
  | key (k : Fin 16)
  | keyWait
  | frameChanged
  | finished
  | faultRecord
  | display
  | byte (a : Nat)
  | random
  | diag
  | config
deriving DecidableEq, Repr

/-- The part reads the same in both states. A byte of memory is compared through `MemRead`. -/
def Part.same (p : Part) (s t : State) : Prop :=
  match p with
  | .reg r => t.getV r = s.getV r
  | .index => t.i = s.i
  | .pc => t.pc = s.pc
  | .stack => t.stack = s.stack
  | .delay => t.dt = s.dt
  | .sound => t.st = s.st
  | .key k => t.key k = s.key k
  | .keyWait => t.kwait = s.kwait
  | .frameChanged => t.fc = s.fc
  | .finished => t.finished = s.finished
  | .faultRecord => t.fault = s.fault ∧ t.faultPc = s.faultPc ∧ t.faultInfo = s.faultInfo
  | .display => t.fb = s.fb
  | .byte a => t.memRead a = s.memRead a
  | .random => t.rndIn = s.rndIn ∧ t.rndDraws = s.rndDraws
  | .diag => t.diag = s.diag
  | .config => t.cfg = s.cfg

/-- Every part outside the list is unchanged. -/
def UnchangedBut (parts : List Part) (s t : State) : Prop := ∀ p, p ∉ parts → p.same s t

/-- The bytes of memory at `n` addresses from `base` on. -/
def bytesFrom (base n : Nat) : List Part := (List.range n).map fun k => .byte (base + k)

/-- The instruction answers a next state, of which `P` holds. -/
def Completes (i : Instr) (s : State) (P : State → Prop) : Prop := ∃ t, exec i s = .next t ∧ P t

/-- `pc` stands `k` past `p`, modulo 65536 (R58). -/
def PcPast (p pc : Word) (k : Nat) : Prop := pc.toNat = (p.toNat + k) % 65536

/-- `t` holds the fault record of R106. A claim about a faulted state rests on these three fields alone (R106). -/
def Records (t : State) (code : FaultCode) (p : Word) (info : Nat) : Prop :=
  t.fault = some code ∧ t.faultPc = p ∧ t.faultInfo.toNat = info

/-! ## The faults of an instruction, from the table of R105 -/

/-- Which fault the instruction raises in the state, and the number it records (R105). -/
def faultOf (i : Instr) (s : State) : Option (FaultCode × Nat) :=
  let i0 := s.i.toNat
  let past := max i0 s.cfg.memSize
  match i with
  | .ret => if s.stack = [] then some (.stackUnderflow, 0) else none
  | .call _ => if s.stack.length < s.cfg.stackDepth then none else some (.stackOverflow, 0)
  | .skp x => if 15 < (s.getV x).toNat then some (.keyRange, (s.getV x).toNat) else none
  | .sknp x => if 15 < (s.getV x).toNat then some (.keyRange, (s.getV x).toNat) else none
  | .ldF x => if 15 < (s.getV x).toNat then some (.fontRange, (s.getV x).toNat) else none
  | .ldB _ => if i0 + 3 ≤ s.cfg.memSize then none else some (.memWriteRange, past)
  | .storeRegs x => if i0 + x.toNat + 1 ≤ s.cfg.memSize then none else some (.memWriteRange, past)
  | .loadRegs x => if i0 + x.toNat + 1 ≤ s.cfg.memSize then none else some (.memReadRange, past)
  | .drw _ _ n => if i0 + n.toNat ≤ s.cfg.memSize then none else some (.memReadRange, past)
  | _ => none

/-! ## Writers of each register, from the spec's lists -/

/-- The instructions that write VF though it is not their destination (R19). -/
def writesFlag : Instr → Bool
  | .orReg _ _ | .andReg _ _ | .xorReg _ _ | .addReg _ _ | .sub _ _ | .subn _ _ | .shr _ _ | .shl _ _ | .drw _ _ _ => true
  | _ => false

/-- The named destination registers of an instruction (R19; FX65 loads V0..VX). -/
def destinations : Instr → List Reg
  | .ldImm x _ | .addImm x _ | .rnd x _ | .ldVxDt x | .ldVxK x => [x]
  | .ldReg x _ | .orReg x _ | .andReg x _ | .xorReg x _ | .addReg x _ | .sub x _ | .subn x _ | .shr x _ | .shl x _ => [x]
  | .loadRegs x => (List.range (x.toNat + 1)).map (BitVec.ofNat 4)
  | _ => []

/-! ## A sprite's pixels, from R87, R89, R90 and R91 -/

/-- Whether the sprite S drawn at (x, y) covers display pixel (px, py) with a set bit: sprite pixel (i, r), bit `7 − i` of S[r], lands
on ((x0 + i) mod W, y0 + r), the row dropped past the bottom or wrapped under DRAW_VWRAP; where W = 8 the part past the right
edge is not drawn. -/
def spritePixel (c : Config) (x y : Nat) (rows : List Byte) (px py : Nat) : Bool :=
  let x0 := x % c.width
  let y0 := y % c.height
  let i := (px + c.width - x0) % c.width
  let r := if c.drawVWrap then (py + c.height - y0) % c.height else py - y0
  decide (i < 8) && decide (c.width = 8 → x0 ≤ px) && decide (c.drawVWrap = true ∨ y0 ≤ py) &&
    (rows.getD r 0).getLsbD (7 - i)

/-- Whether row r of a sprite drawn at (x, y), holding the byte `row`, covers display pixel (px, py) with a set bit. -/
def rowPixel (c : Config) (x y r : Nat) (row : Byte) (px py : Nat) : Bool :=
  let x0 := x % c.width
  let yy := y % c.height + r
  let i := (px + c.width - x0) % c.width
  decide (i < 8) && decide (c.width = 8 → x0 ≤ px) && decide (py = if c.drawVWrap then yy % c.height else yy) &&
    row.getLsbD (7 - i)

/-- Whether the first rows of a sprite, as many as the last argument says, flip pixel (px, py) an odd number of times: under DRAW_VWRAP
a sprite of more than H rows covers a display row more than once, and each covering row is drawn in turn (R89). -/
def spriteFlips (c : Config) (x y : Nat) (rows : List Byte) (px py : Nat) : Nat → Bool
  | 0 => false
  | n + 1 => spriteFlips c x y rows px py n != rowPixel c x y n (rows.getD n 0) px py

end Sys2Proof.Machine
end

