-- ==== Sys2Proof/Certificates/Slice0/Obligations.lean ====
section
/-! DEFINITION. The statements about the block, one def Obligations.<Name> : Prop each.

"Rests on D<n>" in a docstring names a decision the spec marks as its own (spec/92_eei_decisions.md); "log n" names a choice of this
model (notes/assumptions/n.md). `Completes i s P` says that exec answers a next state of which P holds. -/

open Sys2Proof Sys2Proof.Machine

/-! ## Encoding, decoding and fetch -/

/-- R52, R51: words written out bit by bit from the opcode map decode to the instruction and the operands they stand for, at least one
for each family, and words outside the rows are unknown. Exact matching rests on D11. -/
def Obligations.WrittenWordsDecode : Prop :=
  decodeWord 0b0000_0000_1110_1110#16 = .instr .ret ∧
  decodeWord 0b0010_0011_0100_0101#16 = .instr (.call 0x345) ∧
  decodeWord 0b0011_1010_0100_0010#16 = .instr (.seImm 0xA 0x42) ∧
  decodeWord 0b1000_0001_0010_1110#16 = .instr (.shl 0x1 0x2) ∧
  decodeWord 0b1000_1111_0001_0101#16 = .instr (.sub 0xF 0x1) ∧
  decodeWord 0b1100_0101_0000_1111#16 = .instr (.rnd 0x5 0x0F) ∧
  decodeWord 0b1111_0011_0101_0101#16 = .instr (.storeRegs 0x3) ∧
  decodeWord 0b1101_0001_0010_0101#16 = .instr (.drw 0x1 0x2 0x5) ∧
  decodeWord 0b1110_0010_1010_0001#16 = .instr (.sknp 0x2) ∧
  decodeWord 0b1111_0100_0001_1000#16 = .instr (.ldStVx 0x4) ∧
  decodeWord 0b0101_0001_0010_0001#16 = .unknown 0x5121 ∧
  decodeWord 0b0000_0001_0010_0011#16 = .unknown 0x0123

/-- Every instruction, with every operand, is what the decoder reads from its encoded bytes, and the bytes after it are left. -/
def Obligations.DecodeOfEncodeIsTheInstruction : Prop :=
  ∀ (i : Instr) (rest : List Byte), decodeBytes (encodeBytes i ++ rest) = .word (.instr i) rest

/-- R53: every word decodes to exactly one instruction row of the table, whose fixed bits it has, and whose fields are the word's own
(the instruction encodes back to the word), or it matches no row and is unknown. -/
def Obligations.EveryWordHasOneRowOrIsUnknown : Prop :=
  ∀ w : Word,
    (∃ i, decodeWord w = .instr i ∧ encode i = w ∧ opcodeRow i ∈ opcodeTable ∧ (opcodeRow i).matchesWord w = true ∧
      ∀ r ∈ opcodeTable, r.matchesWord w = true → r = opcodeRow i) ∨
    (decodeWord w = .unknown w ∧ ∀ r ∈ opcodeTable, r.matchesWord w = false)

/-- R38: the fetch composes Mem[a] and Mem[a+1] big-endian; where a + 1 ≥ MEM_SIZE the tick raises FETCH_RANGE. -/
def Obligations.FetchIsBigEndianOrFaults : Prop :=
  (∀ (s : State) (a : Nat) (hi lo : Byte), s.memRead a = some hi → s.memRead (a + 1) = some lo →
    ∃ w, s.fetch16 a = some w ∧ w.toNat = hi.toNat * 256 + lo.toNat) ∧
  (∀ (s : State) (a : Nat), s.cfg.memSize ≤ a + 1 → s.fetch16 a = none) ∧
  (∀ s : State, s.clean → s.cfg.memSize ≤ s.pc.toNat + 1 → ∃ t, step s = .next t ∧ t.fault = some .fetchRange)

/-- R57: where the word at PC decodes to an instruction, a step of a clean state is the start of the tick (both timers decayed, FC and
the DIAG event cleared, nothing else), then exec, then FINISHED, written unless the instruction raised a fault. The FINISHED and
fault clauses rest on D16 and D17; the DIAG clause on log 9. -/
def Obligations.StepRunsTheDecodedInstruction : Prop :=
  ∀ (s : State) (i : Instr), s.clean → s.fetches i →
    (∃ s1 : State, s1.dt.toNat = s.dt.toNat - 1 ∧ s1.st.toNat = s.st.toNat - 1 ∧ s1.fc = false ∧ s1.diag = none ∧
      UnchangedBut [.delay, .sound, .frameChanged, .diag] s s1 ∧
      ∀ t, exec i s1 = .next t →
        (t.fault ≠ none → step s = .next t) ∧
        (t.fault = none → ∃ u, step s = .next u ∧ UnchangedBut [.finished] t u ∧
          (u.finished = true ↔ ∃ nnn, i = .jp nnn ∧ nnn.toNat = s.pc.toNat)))

/-- R54: an unknown word under nop emits DIAG(w), advances PC by 2, clears FC and FINISHED and changes nothing else but the timers;
under fault it raises ILLEGAL_OPCODE, recording the word. Rests on D11 and D34; the DIAG field on log 9. -/
def Obligations.UnknownWordFollowsThePolicy : Prop :=
  ∀ (s : State) (w : Word), s.clean → s.fetch16 s.pc.toNat = some w → decodeWord w = .unknown w →
    (s.cfg.unknownPolicy = .nop → ∃ t, step s = .next t ∧ PcPast s.pc t.pc 2 ∧ t.diag = some w ∧ t.fc = false ∧
      t.finished = false ∧ t.dt.toNat = s.dt.toNat - 1 ∧ t.st.toNat = s.st.toNat - 1 ∧
      UnchangedBut [.pc, .diag, .frameChanged, .finished, .delay, .sound] s t) ∧
    (s.cfg.unknownPolicy = .fault → ∃ t, step s = .next t ∧ Records t .illegalOpcode s.pc w.toNat)

/-- The word placed by withFetchWord is the word the next step fetches, and its two bytes are all that changes. The model's
interface to a loader (log 13), over R38 and R39. -/
def Obligations.WithFetchWordIsFetchedNext : Prop :=
  ∀ (s : State) (w : Nat), Memory.Wf s.cfg s.mem → s.pc.toNat + 1 < s.cfg.memSize → w < 65536 →
    (s.withFetchWord 16 w).fetch16 s.pc.toNat = some (BitVec.ofNat 16 w) ∧
    UnchangedBut (bytesFrom s.pc.toNat 2) s (s.withFetchWord 16 w)

/-! ## ALU -/

/-- R69, R70, R71: LD VX,NN; ADD VX,NN; LD VX,VY write register X and PC only. The sum wraps modulo 256 and no flag changes. -/
def Obligations.ImmediatesAndMoveWriteOnlyX : Prop :=
  ∀ (s : State) (x y : Reg) (nn : Byte),
    Completes (.ldImm x nn) s (fun t => t.getV x = nn ∧ PcPast s.pc t.pc 2 ∧ UnchangedBut [.reg x, .pc] s t) ∧
    Completes (.addImm x nn) s (fun t => (t.getV x).toNat = ((s.getV x).toNat + nn.toNat) % 256 ∧
      PcPast s.pc t.pc 2 ∧ UnchangedBut [.reg x, .pc] s t) ∧
    Completes (.ldReg x y) s (fun t => t.getV x = s.getV y ∧ PcPast s.pc t.pc 2 ∧ UnchangedBut [.reg x, .pc] s t)

/-- R72, R73, R74: OR, AND and XOR, bit by bit; VF ends 0, with X = 15 too. -/
def Obligations.LogicWritesXAndClearsVf : Prop :=
  ∀ (s : State) (x y : Reg),
    Completes (.orReg x y) s (fun t => t.getV vf = 0 ∧
      (x ≠ vf → ∀ j, (t.getV x).getLsbD j = ((s.getV x).getLsbD j || (s.getV y).getLsbD j)) ∧
      PcPast s.pc t.pc 2 ∧ UnchangedBut [.reg x, .reg vf, .pc] s t) ∧
    Completes (.andReg x y) s (fun t => t.getV vf = 0 ∧
      (x ≠ vf → ∀ j, (t.getV x).getLsbD j = ((s.getV x).getLsbD j && (s.getV y).getLsbD j)) ∧
      PcPast s.pc t.pc 2 ∧ UnchangedBut [.reg x, .reg vf, .pc] s t) ∧
    Completes (.xorReg x y) s (fun t => t.getV vf = 0 ∧
      (x ≠ vf → ∀ j, (t.getV x).getLsbD j = ((s.getV x).getLsbD j != (s.getV y).getLsbD j)) ∧
      PcPast s.pc t.pc 2 ∧ UnchangedBut [.reg x, .reg vf, .pc] s t)

/-- R75: ADD VX,VY on the operands read first; VF ends holding the carry, with X = 15 too. -/
def Obligations.AddWritesSumAndCarry : Prop :=
  ∀ (s : State) (x y : Reg),
    Completes (.addReg x y) s (fun t =>
      (x ≠ vf → (t.getV x).toNat = ((s.getV x).toNat + (s.getV y).toNat) % 256) ∧
      (t.getV vf).toNat = (if (s.getV x).toNat + (s.getV y).toNat > 255 then 1 else 0) ∧
      PcPast s.pc t.pc 2 ∧ UnchangedBut [.reg x, .reg vf, .pc] s t)

/-- R76, R77: SUB is VX − VY and SUBN is VY − VX, modulo 256; VF ends 1 exactly where no borrow occurred, with X = 15 too. -/
def Obligations.SubtractionsWriteDifferenceAndNoBorrow : Prop :=
  ∀ (s : State) (x y : Reg),
    Completes (.sub x y) s (fun t =>
      (x ≠ vf → ((t.getV x).toNat : Int) = (((s.getV x).toNat : Int) - (s.getV y).toNat) % 256) ∧
      (t.getV vf).toNat = (if (s.getV x).toNat ≥ (s.getV y).toNat then 1 else 0) ∧
      PcPast s.pc t.pc 2 ∧ UnchangedBut [.reg x, .reg vf, .pc] s t) ∧
    Completes (.subn x y) s (fun t =>
      (x ≠ vf → ((t.getV x).toNat : Int) = (((s.getV y).toNat : Int) - (s.getV x).toNat) % 256) ∧
      (t.getV vf).toNat = (if (s.getV y).toNat ≥ (s.getV x).toNat then 1 else 0) ∧
      PcPast s.pc t.pc 2 ∧ UnchangedBut [.reg x, .reg vf, .pc] s t)

/-- What a shift leaves in VX and VF, by SHIFT_VF_ORDER: the later write wins where X = 15 (R68). -/
def ShiftWrites (s t : State) (x : Reg) (result flag : Nat) : Prop :=
  (s.cfg.shiftVfOrder = .flagThenDest → (t.getV x).toNat = result ∧ (x ≠ vf → (t.getV vf).toNat = flag)) ∧
  (s.cfg.shiftVfOrder = .destThenFlag → (t.getV vf).toNat = flag ∧ (x ≠ vf → (t.getV x).toNat = result))

/-- R78, R79: SHR is VY div 2 with bit 0 as the flag, SHL is 2·VY mod 256 with bit 7 as the flag; the old VX is not read. The order for
X = 15 rests on D9, the operand latch for Y = 15 on D8. -/
def Obligations.ShiftsMoveVyIntoVx : Prop :=
  ∀ (s : State) (x y : Reg),
    Completes (.shr x y) s (fun t => ShiftWrites s t x ((s.getV y).toNat / 2) ((s.getV y).toNat % 2) ∧
      PcPast s.pc t.pc 2 ∧ UnchangedBut [.reg x, .reg vf, .pc] s t) ∧
    Completes (.shl x y) s (fun t => ShiftWrites s t x (2 * (s.getV y).toNat % 256) ((s.getV y).toNat / 128) ∧
      PcPast s.pc t.pc 2 ∧ UnchangedBut [.reg x, .reg vf, .pc] s t)

/-- R80: RND writes the drawn byte combined by exclusive or, bit by bit, and uses up one draw: the byte the host has supplied, or a
free one. Rests on D25; the two sources of the byte on log 8. -/
def Obligations.RandomIsXoredIntoVx : Prop :=
  ∀ (s : State) (x : Reg) (nn : Byte),
    (∀ r rest, s.rndIn = r :: rest →
      Completes (.rnd x nn) s (fun t => (∀ j, (t.getV x).getLsbD j = (r.getLsbD j != nn.getLsbD j)) ∧
        t.rndIn = rest ∧ t.rndDraws = s.rndDraws + 1 ∧ PcPast s.pc t.pc 2 ∧ UnchangedBut [.reg x, .pc, .random] s t)) ∧
    (s.rndIn = [] →
      Completes (.rnd x nn) s (fun t =>
        (∀ j, (t.getV x).getLsbD j = ((Config.freeRnd s.rndDraws).getLsbD j != nn.getLsbD j)) ∧
        t.rndIn = [] ∧ t.rndDraws = s.rndDraws + 1 ∧ PcPast s.pc t.pc 2 ∧ UnchangedBut [.reg x, .pc, .random] s t))

/-! ## Control transfer -/

/-- R62, R63: SE VX,NN and SNE VX,NN leave PC at p + 4 or p + 2 and change nothing else. -/
def Obligations.ImmediateSkipsMoveOnlyPc : Prop :=
  ∀ (s : State) (x : Reg) (nn : Byte),
    Completes (.seImm x nn) s (fun t => PcPast s.pc t.pc (if s.getV x = nn then 4 else 2) ∧ UnchangedBut [.pc] s t) ∧
    Completes (.sneImm x nn) s (fun t => PcPast s.pc t.pc (if s.getV x = nn then 2 else 4) ∧ UnchangedBut [.pc] s t)

/-- R64, R65: SE VX,VY and SNE VX,VY leave PC at p + 4 or p + 2 and change nothing else; with X = Y the first always skips and the
second never. The encodings they stand for rest on D11. -/
def Obligations.RegisterSkipsMoveOnlyPc : Prop :=
  ∀ (s : State) (x y : Reg),
    Completes (.seReg x y) s (fun t =>
      PcPast s.pc t.pc (if x = y ∨ s.getV x = s.getV y then 4 else 2) ∧ UnchangedBut [.pc] s t) ∧
    Completes (.sneReg x y) s (fun t =>
      PcPast s.pc t.pc (if x = y ∨ s.getV x = s.getV y then 2 else 4) ∧ UnchangedBut [.pc] s t)

/-- R60, R66: JP NNN leaves PC = NNN and JP V0,NNN leaves PC = V0 + NNN, not truncated to 12 bits; nothing else changes. Rests on D18
(widths); FINISHED is the step's (D16). -/
def Obligations.JumpsSetPc : Prop :=
  ∀ (s : State) (nnn : Addr12),
    Completes (.jp nnn) s (fun t => t.pc.toNat = nnn.toNat ∧ UnchangedBut [.pc] s t) ∧
    Completes (.jpV0 nnn) s (fun t => t.pc.toNat = (s.getV 0).toNat + nnn.toNat ∧ UnchangedBut [.pc] s t)

/-- R61: CALL pushes p and leaves PC = NNN; on a full stack it raises STACK_OVERFLOW and PC is not written. -/
def Obligations.CallPushesAndJumps : Prop :=
  ∀ (s : State) (nnn : Addr12),
    (s.stack.length < s.cfg.stackDepth → Completes (.call nnn) s (fun t =>
      t.stack = s.pc :: s.stack ∧ t.pc.toNat = nnn.toNat ∧ UnchangedBut [.stack, .pc] s t)) ∧
    (s.stack.length ≥ s.cfg.stackDepth → Completes (.call nnn) s (fun t => t.fault = some .stackOverflow ∧ t.pc = s.pc))

/-- R59: RET pops r and leaves PC = r + 2; on an empty stack it raises STACK_UNDERFLOW. Rests on D20. -/
def Obligations.ReturnPopsAndResumes : Prop :=
  ∀ s : State,
    (∀ r rest, s.stack = r :: rest → Completes .ret s (fun t =>
      t.stack = rest ∧ PcPast r t.pc 2 ∧ UnchangedBut [.stack, .pc] s t)) ∧
    (s.stack = [] → Completes .ret s (fun t => t.fault = some .stackUnderflow))

/-- R59, R61: a RET met with the stack a CALL left resumes at the word after that CALL, with the stack as before it. Rests on D20. -/
def Obligations.ReturnUndoesCall : Prop :=
  ∀ (s t u : State) (nnn : Addr12), s.clean → exec (.call nnn) s = .next t → t.clean → u.stack = t.stack →
    Completes .ret u (fun v => v.stack = s.stack ∧ PcPast s.pc v.pc 2 ∧ v.fault = u.fault)

/-- R61: a CALL to itself pushes once a tick while there is room, and the tick after the stack is full raises STACK_OVERFLOW. The
recorded 0 rests on D17 and log 6. -/
def Obligations.SelfCallFillsTheStackThenFaults : Prop :=
  ∀ (s : State) (nnn : Addr12) (n : Nat), s.clean → s.fetches (.call nnn) → nnn.toNat = s.pc.toNat →
    (s.stack.length + n ≤ s.cfg.stackDepth → ∃ t, Host.Core.run Sys2Proof.core n s = .next t ∧
      State.stack t = List.replicate n s.pc ++ s.stack ∧ State.pc t = s.pc ∧ State.fault t = none) ∧
    (s.stack.length + n = s.cfg.stackDepth + 1 → 0 < n → ∃ t, Host.Core.run Sys2Proof.core n s = .next t ∧
      Records t .stackOverflow s.pc 0)

/-! ## Index register and memory -/

/-- R81: LD I,NNN. -/
def Obligations.LoadIndexSetsI : Prop :=
  ∀ (s : State) (nnn : Addr12),
    Completes (.ldI nnn) s (fun t => t.i.toNat = nnn.toNat ∧ PcPast s.pc t.pc 2 ∧ UnchangedBut [.index, .pc] s t)

/-- R82: ADD I,VX wraps at 16 bits and writes no flag. Rests on D10 and D18. -/
def Obligations.AddIndexWrapsAtSixteenBits : Prop :=
  ∀ (s : State) (x : Reg),
    Completes (.addI x) s (fun t => t.i.toNat = (s.i.toNat + (s.getV x).toNat) % 65536 ∧ PcPast s.pc t.pc 2 ∧
      UnchangedBut [.index, .pc] s t)

/-- R43, R58, R83: for a digit 0–15, LD F,VX leaves I at the digit's glyph, 5·d, and PC at p + 2. The other digits are
InstructionFaultsAreExactlyTheTable's (D13, log 14). -/
def Obligations.FontLookupPointsAtGlyph : Prop :=
  ∀ (s : State) (x : Reg), (s.getV x).toNat ≤ 15 →
    Completes (.ldF x) s (fun t => t.i.toNat = 5 * (s.getV x).toNat ∧ PcPast s.pc t.pc 2 ∧ UnchangedBut [.index, .pc] s t)

/-- R84: LD B,VX stores the three decimal digits of VX at I, I + 1 and I + 2, and no other byte; I is unchanged. That the addresses do
not wrap rests on D18; where they leave memory, see InstructionFaultsAreExactlyTheTable. -/
def Obligations.BcdStoresThreeDigits : Prop :=
  ∀ (s : State) (x : Reg), Memory.Wf s.cfg s.mem → s.base + 3 ≤ s.cfg.memSize →
    Completes (.ldB x) s (fun t => ∃ h d o : Byte,
      t.memRead s.base = some h ∧ t.memRead (s.base + 1) = some d ∧ t.memRead (s.base + 2) = some o ∧
      (s.getV x).toNat = 100 * h.toNat + 10 * d.toNat + o.toNat ∧ d.toNat < 10 ∧ o.toNat < 10 ∧
      PcPast s.pc t.pc 2 ∧ UnchangedBut (.pc :: bytesFrom s.base 3) s t)

/-- R85: LD [I],VX stores V0..VX from I on, and no other byte, and leaves I advanced by X + 1. Rests on D18 as above. -/
def Obligations.RegisterDumpStoresUpToX : Prop :=
  ∀ (s : State) (x : Reg), Memory.Wf s.cfg s.mem → s.base + x.toNat + 1 ≤ s.cfg.memSize →
    Completes (.storeRegs x) s (fun t =>
      (∀ r : Reg, r.toNat ≤ x.toNat → t.memRead (s.base + r.toNat) = some (s.getV r)) ∧
      t.i.toNat = (s.i.toNat + x.toNat + 1) % 65536 ∧ PcPast s.pc t.pc 2 ∧
      UnchangedBut ([.index, .pc] ++ bytesFrom s.base (x.toNat + 1)) s t)

/-- R86: LD VX,[I] loads V0..VX from I on, VF too with X = 15, and leaves I advanced by X + 1. Rests on D18 as above. -/
def Obligations.RegisterLoadReadsUpToX : Prop :=
  ∀ (s : State) (x : Reg), s.base + x.toNat + 1 ≤ s.cfg.memSize →
    Completes (.loadRegs x) s (fun t =>
      (∀ r : Reg, r.toNat ≤ x.toNat → s.memRead (s.base + r.toNat) = some (t.getV r)) ∧
      (∀ r : Reg, x.toNat < r.toNat → t.getV r = s.getV r) ∧
      t.i.toNat = (s.i.toNat + x.toNat + 1) % 65536 ∧ PcPast s.pc t.pc 2 ∧
      UnchangedBut ([.index, .pc] ++ (destinations (.loadRegs x)).map .reg) s t)

/-- R85, R86: loading back what a dump stored, from the same I, gives every register V0..VX its dumped value. -/
def Obligations.LoadUndoesDump : Prop :=
  ∀ (s t u : State) (x : Reg), Memory.Wf s.cfg s.mem → s.base + x.toNat + 1 ≤ s.cfg.memSize →
    exec (.storeRegs x) s = .next t → u.cfg = t.cfg → u.mem = t.mem → u.i = s.i →
    Completes (.loadRegs x) u (fun v => (∀ r : Reg, r.toNat ≤ x.toNat → v.getV r = s.getV r) ∧ v.i = t.i)

/-- R48: the bytes a dump writes are the bytes the next fetch reads, the word V0 V1 big-endian at I. The spec marks R48 as derived. -/
def Obligations.StoreIsSeenByTheNextFetch : Prop :=
  ∀ (s t : State) (x : Reg), Memory.Wf s.cfg s.mem → s.base + x.toNat + 1 ≤ s.cfg.memSize → 1 ≤ x.toNat →
    exec (.storeRegs x) s = .next t →
    ∃ w, t.fetch16 s.base = some w ∧ w.toNat = (s.getV 0).toNat * 256 + (s.getV 1).toNat

/-! ## Display -/

/-- R92, R94: CLS makes every frame-buffer byte 0x00; it reports no collision (VF is unchanged) and changes nothing else but PC. That FC
is unchanged rests on D15 (log 14). -/
def Obligations.ClearZeroesEveryByte : Prop :=
  ∀ s : State,
    Completes .cls s (fun t => t.fb.length = s.fb.length ∧ (∀ b ∈ t.fb, b = 0) ∧ PcPast s.pc t.pc 2 ∧
      UnchangedBut [.display, .pc] s t)

/-- R88: XorByte(b, m) changes byte b, lane by lane, by exclusive or, and no other byte; it records a collision exactly where some lane
was set before and is clear after. -/
def Obligations.XorByteFlipsLanesAndDetectsCollision : Prop :=
  ∀ (k : Canvas) (b : Nat) (m : Byte), b < k.fb.length →
    (k.xorByte b m).fb.length = k.fb.length ∧
    (∀ a j, ((k.xorByte b m).fb.getD a 0).getLsbD j =
      if a = b then ((k.fb.getD a 0).getLsbD j != m.getLsbD j) else (k.fb.getD a 0).getLsbD j) ∧
    ((k.xorByte b m).collided = true ↔ k.collided = true ∨
      ∃ j, (k.fb.getD b 0).getLsbD j = true ∧ ((k.xorByte b m).fb.getD b 0).getLsbD j = false)

/-- R95: DRW blits the N bytes at I at (VX, VY), sets VF to 1 on a collision and else leaves it, sets FC, and changes nothing else but PC.
The operand latch rests on D8, the range read and N = 0 on D24. Where the range leaves memory, see
InstructionFaultsAreExactlyTheTable. -/
def Obligations.DrawBlitsTheSpriteAtI : Prop :=
  ∀ (s : State) (x y : Reg) (n : Nibble), s.base + n.toNat ≤ s.cfg.memSize →
    ∃ rows : List Byte, rows.length = n.toNat ∧ (∀ k, k < n.toNat → s.memRead (s.base + k) = rows[k]?) ∧
      Completes (.drw x y n) s (fun t =>
        t.fb = (blit s.cfg (s.getV x).toNat (s.getV y).toNat rows s.fb).fb ∧
        t.getV vf = (if (blit s.cfg (s.getV x).toNat (s.getV y).toNat rows s.fb).collided = true then 1 else s.getV vf) ∧
        t.fc = true ∧ PcPast s.pc t.pc 2 ∧ UnchangedBut [.display, .reg vf, .frameChanged, .pc] s t)

/-- R87, R89–R91: the packed, byte-splitting blitter is the exclusive or of the sprite's pixels into the display's pixels, the origin
reduced modulo W and H, wrapping at the right edge, dropped or wrapped at the bottom. It refines the byte algorithm to pixels; the
pixel form is the spec's own inference in R89, the edges rest on D22 and D23 (log 14). (Where DRAW_VWRAP lets more than H rows
overlap, a pixel is drawn more than once; BlitFlipsPixelsRowByRow speaks for those sprites too.) -/
def Obligations.BlitXorsTheSpritesPixels : Prop :=
  ∀ (c : Config) (x y : Nat) (rows fb : List Byte), c.legal = true → fb.length = c.fbBytes →
    (c.drawVWrap = false ∨ rows.length ≤ c.height) → ∀ px py, px < c.width → py < c.height →
      pixelOf c (blit c x y rows fb).fb px py = (pixelOf c fb px py != spritePixel c x y rows px py)

/-- R88, R89: the blit reports a collision exactly where some set pixel of the sprite lands on a set pixel of the display. Same
grounds as BlitXorsTheSpritesPixels; the sprites of more than H rows are BlitCollidesRowByRow's. -/
def Obligations.BlitCollidesExactlyOnSetPixels : Prop :=
  ∀ (c : Config) (x y : Nat) (rows fb : List Byte), c.legal = true → fb.length = c.fbBytes →
    (c.drawVWrap = false ∨ rows.length ≤ c.height) →
      ((blit c x y rows fb).collided = true ↔
        ∃ px py, px < c.width ∧ py < c.height ∧ pixelOf c fb px py = true ∧ spritePixel c x y rows px py = true)

/-- R95, S4: the same sprite drawn twice at the same place restores the frame buffer, whatever wraps, clips or overlaps. -/
def Obligations.DrawingTwiceRestoresTheDisplay : Prop :=
  ∀ (c : Config) (x y : Nat) (rows fb : List Byte), (blit c x y rows (blit c x y rows fb).fb).fb = fb

/-- R93: the pixel query answers bit 7 − (x mod 8) of FB[y·BPR + x div 8] inside the display and is refused outside it (R115); the
sizes are W and H. That a query outside is refused rests on D21, the form of the port on log 12. -/
def Obligations.PixelQueryReadsItsBit : Prop :=
  ∀ s : State, s.cfg.legal = true → s.fb.length = s.cfg.fbBytes →
    screenWidth s = s.cfg.width ∧ screenHeight s = s.cfg.height ∧
    ∀ x y, (x < s.cfg.width → y < s.cfg.height →
        ∃ b, s.fb[y * (s.cfg.width / 8) + x / 8]? = some b ∧ screenValue x y s = .next (b.getLsbD (7 - x % 8))) ∧
      (s.cfg.width ≤ x ∨ s.cfg.height ≤ y → ∃ r, screenValue x y s = .refused r)

/-! ## Timers and keys -/

/-- R96: every tick of a clean block takes one from each timer, floored at 0, whatever the word, unless the word writes that timer, which
then holds the written value undecayed. The ticks that fault rest on D17. -/
def Obligations.TimersDecayOncePerTick : Prop :=
  ∀ s t : State, s.clean → step s = .next t →
    ((∀ x, ¬ s.fetches (.ldDtVx x)) → t.dt.toNat = s.dt.toNat - 1) ∧
    (∀ x, s.fetches (.ldDtVx x) → t.dt = s.getV x) ∧
    ((∀ x, ¬ s.fetches (.ldStVx x)) → t.st.toNat = s.st.toNat - 1) ∧
    (∀ x, s.fetches (.ldStVx x) → t.st = s.getV x)

/-- R101, R103, R104: LD VX,DT reads the timer (in a tick, the value already decayed), LD DT,VX and LD ST,VX write it (in a
tick, after the decay, so that the written value has not decayed); the beep output follows ST. -/
def Obligations.TimerMovesCopyTheRegister : Prop :=
  ∀ (s : State) (x : Reg),
    Completes (.ldVxDt x) s (fun t => t.getV x = s.dt ∧ PcPast s.pc t.pc 2 ∧ UnchangedBut [.reg x, .pc] s t) ∧
    (s.clean → s.fetches (.ldVxDt x) → ∃ t, step s = .next t ∧ (t.getV x).toNat = s.dt.toNat - 1) ∧
    Completes (.ldDtVx x) s (fun t => t.dt = s.getV x ∧ PcPast s.pc t.pc 2 ∧ UnchangedBut [.delay, .pc] s t) ∧
    Completes (.ldStVx x) s (fun t => t.st = s.getV x ∧ (isBeeping t = true ↔ s.getV x ≠ 0) ∧ PcPast s.pc t.pc 2 ∧
      UnchangedBut [.sound, .pc] s t) ∧
    (s.clean → s.fetches (.ldDtVx x) → ∃ t, step s = .next t ∧ t.dt = s.getV x) ∧
    (s.clean → s.fetches (.ldStVx x) → ∃ t, step s = .next t ∧ t.st = s.getV x ∧ (isBeeping t = true ↔ s.getV x ≠ 0))

/-- R99, R100: SKP and SKNP skip on the level of the key line VX names and change nothing but PC. Key numbers above 15 are
InstructionFaultsAreExactlyTheTable's (D12). -/
def Obligations.KeySkipsFollowTheLine : Prop :=
  ∀ (s : State) (x : Reg) (k : Fin 16), (s.getV x).toNat = k.val →
    Completes (.skp x) s (fun t => PcPast s.pc t.pc (if s.key k = true then 4 else 2) ∧ UnchangedBut [.pc] s t) ∧
    Completes (.sknp x) s (fun t => PcPast s.pc t.pc (if s.key k = true then 2 else 4) ∧ UnchangedBut [.pc] s t)

/-- R102: LD VX,K stalls without a key; latches the lowest pressed key into VX and stays; stalls while any key is held; and goes on in the
first tick with every key released. Rests on D14. -/
def Obligations.KeyReadLatchesThenWaitsForRelease : Prop :=
  ∀ (s : State) (x : Reg),
    (s.kwait = false → (∀ k, s.key k = false) → Completes (.ldVxK x) s (fun t => UnchangedBut [] s t)) ∧
    (∀ k, s.kwait = false → s.key k = true → (∀ j, j < k → s.key j = false) →
      Completes (.ldVxK x) s (fun t => (t.getV x).toNat = k.val ∧ t.kwait = true ∧ UnchangedBut [.reg x, .keyWait] s t)) ∧
    (∀ k, s.kwait = true → s.key k = true → Completes (.ldVxK x) s (fun t => UnchangedBut [] s t)) ∧
    (s.kwait = true → (∀ k, s.key k = false) →
      Completes (.ldVxK x) s (fun t => t.kwait = false ∧ PcPast s.pc t.pc 2 ∧ UnchangedBut [.keyWait, .pc] s t))

/-- What `n` ticks of a standing program change: the timers, n off each, and the flags every tick recomputes. -/
def StandsStillFor (n : Nat) (s t : State) (finished : Bool) : Prop :=
  UnchangedBut [.delay, .sound, .frameChanged, .finished, .diag] s t ∧
  t.dt.toNat = s.dt.toNat - n ∧ t.st.toNat = s.st.toNat - n ∧
  (0 < n → t.fc = false ∧ t.finished = finished ∧ t.diag = none)

/-- R102, R119: while the keys do not change, a program waiting in LD VX,K stalls for any number of ticks, in both phases, and only the
timers run. Rests on D14 (log 14); that no DIAG event stands, on log 9. -/
def Obligations.KeyWaitStallsForever : Prop :=
  ∀ (s : State) (x : Reg) (n : Nat), s.clean → s.fetches (.ldVxK x) →
    ((s.kwait = false ∧ ∀ k, s.key k = false) ∨ (s.kwait = true ∧ ∃ k, s.key k = true)) →
    ∃ t, Host.Core.run Sys2Proof.core n s = .next t ∧ StandsStillFor n s t false

/-! ## Faults -/

/-- R105, R106: exec of every instruction answers a next state, and that state is faulted exactly where the table of R105 says, with the
code, FAULT_PC = p and the number the table gives. Rests on D12, D13, D17 and D24; the 0 of the stack faults on log 6. -/
def Obligations.InstructionFaultsAreExactlyTheTable : Prop :=
  ∀ (i : Instr) (s : State), s.cfg.legal = true → s.clean →
    Completes i s (fun t => (faultOf i s = none → t.fault = none) ∧
      ∀ c n, faultOf i s = some (c, n) → Records t c s.pc n)

/-- R105: a fetch past memory records FETCH_RANGE with FAULT_PC = FAULT_INFO = PC. Rests on D17 and D30. -/
def Obligations.FetchFaultRecordsPc : Prop :=
  ∀ s : State, s.clean → s.cfg.memSize ≤ s.pc.toNat + 1 → ∃ t, step s = .next t ∧ Records t .fetchRange s.pc s.pc.toNat

/-- R106: any number of ticks of a faulted block change nothing. Rests on D17. -/
def Obligations.FaultedBlockNeverChanges : Prop :=
  ∀ (s : State) (n : Nat), s.fault ≠ none → Host.Core.run Sys2Proof.core n s = .next s

/-! ## The whole machine -/

/-- A tick always ends in a next state: it "either completes in full or ends in a fault" (R57), and a fault is a state (R106, log 5). -/
def Obligations.StepAlwaysAnswersNext : Prop := ∀ s : State, ∃ t, step s = .next t

/-- Every step keeps the state well formed: legal parameters, a bounded stack, a frame buffer of W·H/8 bytes, canonical memory inside
MEM_SIZE, a bounded FAULT_INFO, a fault record at reset until a fault (R22, R30–R32; the DIAG part is log 9's). -/
def Obligations.StepKeepsTheStateWellFormed : Prop := ∀ s t : State, s.Wf → step s = .next t → t.Wf

/-- C4, R102: KWAIT set means that the word at PC is LD VX,K, and every step keeps it so: "The word cannot change during the wait". -/
def Obligations.StepKeepsKwaitAtKeyRead : Prop := ∀ s t : State, s.KeyWaitWf → step s = .next t → t.KeyWaitWf

/-- The state after reset meets both invariants. It leans on the values R120 and R121 give that are choices: KWAIT = 0, the empty stack
(D5, log 3) and the clear fault record (D17, log 3), memory with nothing listed (D6, log 4), the default parameters (D2–D4, log 2), and
no DIAG event (log 9). The clear display is the source's. -/
def Obligations.ResetMeetsTheInvariants : Prop := State.reset.Wf ∧ State.reset.KeyWaitWf

/-- Every state of every run, from the construction of any program under any parameters the block accepts, through any sequence of
ticks, key calls and random bytes the host delivers, meets both invariants (R116, R120, R126). It starts from the construction values that are choices: KWAIT = 0, the empty stack
and the clear fault record (D5, D17, log 3), the memory contents (D6, D7, log 4), no DIAG event (log 9). The ports' form is log 12's,
the refusal of illegal parameters log 11's. -/
def Obligations.EveryHostRunKeepsTheInvariants : Prop :=
  ∀ (c : Config) (program : List Byte) (es : List HostEvent) (s t : State),
    construct c program = .next s → hostRun es s = .next t → t.Wf ∧ t.KeyWaitWf

/-- R114: after a tick that did not fault, has_drawn is 1 exactly when the tick executed DRW. CLS does not set it, by D15. -/
def Obligations.HasDrawnExactlyAfterDraw : Prop :=
  ∀ s t : State, s.clean → step s = .next t → t.clean → (hasDrawn t = true ↔ ∃ x y n, s.fetches (.drw x y n))

/-- R29: after a tick that did not fault, is_finished is 1 exactly when the tick executed JP NNN to its own address. Rests on D16. -/
def Obligations.FinishedExactlyAfterSelfJump : Prop :=
  ∀ s t : State, s.clean → step s = .next t → t.clean →
    (isFinished t = true ↔ ∃ nnn, s.fetches (.jp nnn) ∧ nnn.toNat = s.pc.toNat)

/-- Over all instructions, who writes what (R20, R22, R24–R28, R31, R35): memory only LD B and LD [I]; the stack only CALL and RET; the
frame buffer only CLS and DRW; I only its five writers; DT, ST, KWAIT and FC one instruction each; the random input only RND; the key
lines, the parameters, FINISHED and DIAG none. Rests on D15, D25, D26 and D32, and on log 1, 8 and 9 for the model's own fields. -/
def Obligations.EachPartHasOnlyItsWriters : Prop :=
  ∀ (i : Instr) (s t : State), exec i s = .next t →
    ((∀ x, i ≠ .ldB x) → (∀ x, i ≠ .storeRegs x) → ∀ a, t.memRead a = s.memRead a) ∧
    (i ≠ .ret → (∀ nnn, i ≠ .call nnn) → t.stack = s.stack) ∧
    (i ≠ .cls → (∀ x y n, i ≠ .drw x y n) → t.fb = s.fb) ∧
    ((∀ nnn, i ≠ .ldI nnn) → (∀ x, i ≠ .addI x) → (∀ x, i ≠ .ldF x) → (∀ x, i ≠ .storeRegs x) →
      (∀ x, i ≠ .loadRegs x) → t.i = s.i) ∧
    ((∀ x, i ≠ .ldDtVx x) → t.dt = s.dt) ∧
    ((∀ x, i ≠ .ldStVx x) → t.st = s.st) ∧
    ((∀ x, i ≠ .ldVxK x) → t.kwait = s.kwait) ∧
    ((∀ x y n, i ≠ .drw x y n) → t.fc = s.fc) ∧
    ((∀ x nn, i ≠ .rnd x nn) → t.rndIn = s.rndIn ∧ t.rndDraws = s.rndDraws) ∧
    t.keys = s.keys ∧ t.cfg = s.cfg ∧ t.finished = s.finished ∧ t.diag = s.diag

/-- R19: over all instructions, a general register changes only where it is the named destination, or is VF and the instruction is one of
the nine that write the flag. Rests on D10. -/
def Obligations.RegistersChangeOnlyAsDestinationOrFlag : Prop :=
  ∀ (i : Instr) (s t : State) (r : Reg), exec i s = .next t → r ∉ destinations i →
    (r = vf → writesFlag i = false) → t.getV r = s.getV r

/-- R126: "After a self-jump, further ticks change only DT and ST", for any number of ticks; the beep ends when ST runs out. Rests on D16
(log 14); that no DIAG event stands, on log 9. -/
def Obligations.SelfJumpHaltsTheProgram : Prop :=
  ∀ (s : State) (nnn : Addr12) (n : Nat), s.clean → s.fetches (.jp nnn) → nnn.toNat = s.pc.toNat →
    ∃ t, Host.Core.run Sys2Proof.core n s = .next t ∧ StandsStillFor n s t true

/-! ## Reset and the host's ports -/

/-- R120, R121: the state after reset. From the source: PC = 0x0200 and a clear display. The other register values are the spec's
decisions D5, D16 and D17, the bytes above the font D6, the default sizes D2 and D3, the font D7 (log 2, 3, 4). -/
def Obligations.ResetState : Prop :=
  State.reset.pc = 0x0200 ∧ State.reset.fb.length = 256 ∧ (∀ b ∈ State.reset.fb, b = 0) ∧
  (∀ r, State.reset.getV r = 0) ∧ State.reset.i = 0 ∧ State.reset.stack = [] ∧ State.reset.dt = 0 ∧ State.reset.st = 0 ∧
  (∀ k, State.reset.key k = false) ∧ State.reset.kwait = false ∧ State.reset.fc = false ∧ State.reset.finished = false ∧
  State.reset.fault = none ∧ State.reset.faultPc = 0 ∧ State.reset.faultInfo = 0 ∧
  ∀ a, State.reset.memRead a =
    if h : a < 80 then some (State.reset.cfg.font[a]) else if a < 4096 then some 0 else none

/-- R121, R123: construction places the program's bytes from 512 on, unchanged, the font below 80 and 0x00 elsewhere, and leaves the rest
at its reset value; a program longer than MEM_SIZE − 512 bytes is refused. Rests on D5, D6 and D27. -/
def Obligations.ConstructPlacesTheProgram : Prop :=
  ∀ (c : Config) (program : List Byte), c.legal = true →
    (program.length ≤ c.memSize - 512 → ∃ t, construct c program = .next t ∧
      (∀ a, a < c.memSize → t.memRead a =
        if h : a < 80 then some c.font[a]
        else if 512 ≤ a ∧ a < 512 + program.length then program[a - 512]? else some 0) ∧
      UnchangedBut (bytesFrom 512 program.length) (State.initial c) t) ∧
    (program.length > c.memSize - 512 → ∃ r, construct c program = .refused r)

/-- R113: a key call writes one key line and nothing else; k outside 0–15 is refused. Rests on D21. -/
def Obligations.KeyCallsWriteOneLine : Prop :=
  ∀ (s : State) (k : Nat),
    (∀ h : k < 16, (∃ t, setPressed k s = .next t ∧ t.key ⟨k, h⟩ = true ∧ UnchangedBut [.key ⟨k, h⟩] s t) ∧
      (∃ t, setReleased k s = .next t ∧ t.key ⟨k, h⟩ = false ∧ UnchangedBut [.key ⟨k, h⟩] s t)) ∧
    (16 ≤ k → (∃ r, setPressed k s = .refused r) ∧ ∃ r, setReleased k s = .refused r)

/-! ## Sprites of any number of rows -/

/-- R87, R89–R91: BlitXorsTheSpritesPixels for sprites of every length, those of more than H rows under DRAW_VWRAP included: a pixel ends
flipped exactly where an odd number of the sprite's rows cover it with a set bit. The pixel form is the spec's own inference in R89;
the edges rest on D22 and D23 (log 14). -/
def Obligations.BlitFlipsPixelsRowByRow : Prop :=
  ∀ (c : Config) (x y : Nat) (rows fb : List Byte), c.legal = true → fb.length = c.fbBytes →
    ∀ px py, px < c.width → py < c.height →
      pixelOf c (blit c x y rows fb).fb px py = (pixelOf c fb px py != spriteFlips c x y rows px py rows.length)

/-- R88, R89, R91: BlitCollidesExactlyOnSetPixels for sprites of every length: a collision is reported exactly where a set pixel of some row
lands on a pixel that is set once the rows before it are drawn. Same grounds as BlitFlipsPixelsRowByRow. -/
def Obligations.BlitCollidesRowByRow : Prop :=
  ∀ (c : Config) (x y : Nat) (rows fb : List Byte), c.legal = true → fb.length = c.fbBytes →
    ((blit c x y rows fb).collided = true ↔
      ∃ r px py, r < rows.length ∧ px < c.width ∧ py < c.height ∧
        (pixelOf c fb px py != spriteFlips c x y rows px py r) = true ∧ rowPixel c x y r (rows.getD r 0) px py = true)
end

