-- ==== Sys2Proof/Laws/Decode.lean ====
section
/-! SUPPORT. The fields of an encoded word, format by format (30_encoding.md R51), and the bytes of a word (R39). -/

namespace Sys2Proof

@[simp] theorem fieldOp_encodeXNN (op : Nibble) (x : Reg) (nn : Byte) : fieldOp (encodeXNN op x nn) = op := by
  unfold fieldOp encodeXNN
  rw [BitVec.extractLsb'_append_eq_of_le (by omega), BitVec.extractLsb'_append_eq_of_le (by omega)]
  simp

@[simp] theorem fieldX_encodeXNN (op : Nibble) (x : Reg) (nn : Byte) : fieldX (encodeXNN op x nn) = x := by
  unfold fieldX encodeXNN
  rw [BitVec.extractLsb'_append_eq_of_le (by omega), BitVec.extractLsb'_append_eq_of_add_le (by omega)]
  simp

@[simp] theorem fieldNN_encodeXNN (op : Nibble) (x : Reg) (nn : Byte) : fieldNN (encodeXNN op x nn) = nn := by
  unfold fieldNN encodeXNN
  rw [BitVec.extractLsb'_append_eq_of_add_le (by omega)]
  simp

@[simp] theorem fieldOp_encodeXYN (op : Nibble) (x y : Reg) (n : Nibble) : fieldOp (encodeXYN op x y n) = op := by
  unfold fieldOp encodeXYN
  rw [BitVec.extractLsb'_append_eq_of_le (by omega), BitVec.extractLsb'_append_eq_of_le (by omega),
    BitVec.extractLsb'_append_eq_of_le (by omega)]
  simp

@[simp] theorem fieldX_encodeXYN (op : Nibble) (x y : Reg) (n : Nibble) : fieldX (encodeXYN op x y n) = x := by
  unfold fieldX encodeXYN
  rw [BitVec.extractLsb'_append_eq_of_le (by omega), BitVec.extractLsb'_append_eq_of_le (by omega),
    BitVec.extractLsb'_append_eq_of_add_le (by omega)]
  simp

@[simp] theorem fieldY_encodeXYN (op : Nibble) (x y : Reg) (n : Nibble) : fieldY (encodeXYN op x y n) = y := by
  unfold fieldY encodeXYN
  rw [BitVec.extractLsb'_append_eq_of_le (by omega), BitVec.extractLsb'_append_eq_of_add_le (by omega)]
  simp

@[simp] theorem fieldN_encodeXYN (op : Nibble) (x y : Reg) (n : Nibble) : fieldN (encodeXYN op x y n) = n := by
  unfold fieldN encodeXYN
  rw [BitVec.extractLsb'_append_eq_of_add_le (by omega)]
  simp

@[simp] theorem fieldOp_encodeNNN (op : Nibble) (nnn : Addr12) : fieldOp (encodeNNN op nnn) = op := by
  unfold fieldOp encodeNNN
  rw [BitVec.extractLsb'_append_eq_of_le (by omega)]
  simp

@[simp] theorem fieldNNN_encodeNNN (op : Nibble) (nnn : Addr12) : fieldNNN (encodeNNN op nnn) = nnn := by
  unfold fieldNNN encodeNNN
  rw [BitVec.extractLsb'_append_eq_of_add_le (by omega)]
  simp

/-- The two bytes of a word compose to it, the first the more significant. -/
@[simp] theorem composeWord_highByte_lowByte (w : Word) : composeWord (highByte w) (lowByte w) = w := by
  unfold composeWord highByte lowByte
  ext i hi
  rw [BitVec.getElem_append]
  split
  · simp [*]
  · simp only [BitVec.getElem_extractLsb']
    rw [BitVec.getLsbD_eq_getElem (by omega)]
    congr 1
    omega

/-! ## A format under a mask -/

theorem nibble_and_F (a : Nibble) : a &&& 0xF#4 = a := BitVec.and_allOnes (x := a)

theorem byte_and_FF (a : Byte) : a &&& 0xFF#8 = a := BitVec.and_allOnes (x := a)

theorem encodeXNN_and (op p : Nibble) (x q : Reg) (nn r : Byte) :
    encodeXNN op x nn &&& encodeXNN p q r = encodeXNN (op &&& p) (x &&& q) (nn &&& r) := by
  unfold encodeXNN
  rw [BitVec.and_append, BitVec.and_append]

theorem encodeXYN_and (op p : Nibble) (x q y r : Reg) (n m : Nibble) :
    encodeXYN op x y n &&& encodeXYN p q r m = encodeXYN (op &&& p) (x &&& q) (y &&& r) (n &&& m) := by
  unfold encodeXYN
  rw [BitVec.and_append, BitVec.and_append, BitVec.and_append]

theorem encodeNNN_and (op p : Nibble) (a b : Addr12) :
    encodeNNN op a &&& encodeNNN p b = encodeNNN (op &&& p) (a &&& b) := by
  unfold encodeNNN
  rw [BitVec.and_append]

/-- Under the mask F000 only `op1` is left. -/
theorem encodeXNN_and_F000 (op : Nibble) (x : Reg) (nn : Byte) : encodeXNN op x nn &&& 0xF000#16 = encodeXNN op 0 0 := by
  rw [show (0xF000#16 : Word) = encodeXNN 0xF 0 0 from rfl, encodeXNN_and]
  simp [nibble_and_F]

/-- Under the mask F0FF `op1` and the low byte are left. -/
theorem encodeXNN_and_F0FF (op : Nibble) (x : Reg) (nn : Byte) : encodeXNN op x nn &&& 0xF0FF#16 = encodeXNN op 0 nn := by
  rw [show (0xF0FF#16 : Word) = encodeXNN 0xF 0 0xFF from rfl, encodeXNN_and]
  simp [nibble_and_F, byte_and_FF]

/-- Under the mask F00F `op1` and `op4` are left. -/
theorem encodeXYN_and_F00F (op : Nibble) (x y : Reg) (n : Nibble) : encodeXYN op x y n &&& 0xF00F#16 = encodeXYN op 0 0 n := by
  rw [show (0xF00F#16 : Word) = encodeXYN 0xF 0 0 0xF from rfl, encodeXYN_and]
  simp [nibble_and_F]

theorem encodeXYN_and_F000 (op : Nibble) (x y : Reg) (n : Nibble) : encodeXYN op x y n &&& 0xF000#16 = encodeXYN op 0 0 0 := by
  rw [show (0xF000#16 : Word) = encodeXYN 0xF 0 0 0 from rfl, encodeXYN_and]
  simp [nibble_and_F]

theorem encodeNNN_and_F000 (op : Nibble) (a : Addr12) : encodeNNN op a &&& 0xF000#16 = encodeNNN op 0 := by
  rw [show (0xF000#16 : Word) = encodeNNN 0xF 0 from rfl, encodeNNN_and]
  simp [nibble_and_F]

end Sys2Proof
end

