-- ==== Sys2Proof/Laws/State.lean ====
section
/-! SUPPORT. One lemma per field per update of the state, each true by rfl, so that no proof unfolds a record update. -/

namespace Sys2Proof.Machine

variable (s : State)

/-! ## setV -/

@[simp] theorem State.setV_cfg (r : Reg) (b : Byte) : (s.setV r b).cfg = s.cfg := rfl
@[simp] theorem State.setV_v (r : Reg) (b : Byte) : (s.setV r b).v = s.v.set r.toNat b r.isLt := rfl
@[simp] theorem State.setV_i (r : Reg) (b : Byte) : (s.setV r b).i = s.i := rfl
@[simp] theorem State.setV_pc (r : Reg) (b : Byte) : (s.setV r b).pc = s.pc := rfl
@[simp] theorem State.setV_stack (r : Reg) (b : Byte) : (s.setV r b).stack = s.stack := rfl
@[simp] theorem State.setV_dt (r : Reg) (b : Byte) : (s.setV r b).dt = s.dt := rfl
@[simp] theorem State.setV_st (r : Reg) (b : Byte) : (s.setV r b).st = s.st := rfl
@[simp] theorem State.setV_keys (r : Reg) (b : Byte) : (s.setV r b).keys = s.keys := rfl
@[simp] theorem State.setV_kwait (r : Reg) (b : Byte) : (s.setV r b).kwait = s.kwait := rfl
@[simp] theorem State.setV_fc (r : Reg) (b : Byte) : (s.setV r b).fc = s.fc := rfl
@[simp] theorem State.setV_finished (r : Reg) (b : Byte) : (s.setV r b).finished = s.finished := rfl
@[simp] theorem State.setV_fault (r : Reg) (b : Byte) : (s.setV r b).fault = s.fault := rfl
@[simp] theorem State.setV_faultPc (r : Reg) (b : Byte) : (s.setV r b).faultPc = s.faultPc := rfl
@[simp] theorem State.setV_faultInfo (r : Reg) (b : Byte) : (s.setV r b).faultInfo = s.faultInfo := rfl
@[simp] theorem State.setV_fb (r : Reg) (b : Byte) : (s.setV r b).fb = s.fb := rfl
@[simp] theorem State.setV_mem (r : Reg) (b : Byte) : (s.setV r b).mem = s.mem := rfl
@[simp] theorem State.setV_rndIn (r : Reg) (b : Byte) : (s.setV r b).rndIn = s.rndIn := rfl
@[simp] theorem State.setV_rndDraws (r : Reg) (b : Byte) : (s.setV r b).rndDraws = s.rndDraws := rfl
@[simp] theorem State.setV_diag (r : Reg) (b : Byte) : (s.setV r b).diag = s.diag := rfl

/-! ## setI -/

@[simp] theorem State.setI_cfg (a : Word) : (s.setI a).cfg = s.cfg := rfl
@[simp] theorem State.setI_v (a : Word) : (s.setI a).v = s.v := rfl
@[simp] theorem State.setI_i (a : Word) : (s.setI a).i = a := rfl
@[simp] theorem State.setI_pc (a : Word) : (s.setI a).pc = s.pc := rfl
@[simp] theorem State.setI_stack (a : Word) : (s.setI a).stack = s.stack := rfl
@[simp] theorem State.setI_dt (a : Word) : (s.setI a).dt = s.dt := rfl
@[simp] theorem State.setI_st (a : Word) : (s.setI a).st = s.st := rfl
@[simp] theorem State.setI_keys (a : Word) : (s.setI a).keys = s.keys := rfl
@[simp] theorem State.setI_kwait (a : Word) : (s.setI a).kwait = s.kwait := rfl
@[simp] theorem State.setI_fc (a : Word) : (s.setI a).fc = s.fc := rfl
@[simp] theorem State.setI_finished (a : Word) : (s.setI a).finished = s.finished := rfl
@[simp] theorem State.setI_fault (a : Word) : (s.setI a).fault = s.fault := rfl
@[simp] theorem State.setI_faultPc (a : Word) : (s.setI a).faultPc = s.faultPc := rfl
@[simp] theorem State.setI_faultInfo (a : Word) : (s.setI a).faultInfo = s.faultInfo := rfl
@[simp] theorem State.setI_fb (a : Word) : (s.setI a).fb = s.fb := rfl
@[simp] theorem State.setI_mem (a : Word) : (s.setI a).mem = s.mem := rfl
@[simp] theorem State.setI_rndIn (a : Word) : (s.setI a).rndIn = s.rndIn := rfl
@[simp] theorem State.setI_rndDraws (a : Word) : (s.setI a).rndDraws = s.rndDraws := rfl
@[simp] theorem State.setI_diag (a : Word) : (s.setI a).diag = s.diag := rfl

/-! ## setPc -/

@[simp] theorem State.setPc_cfg (a : Word) : (s.setPc a).cfg = s.cfg := rfl
@[simp] theorem State.setPc_v (a : Word) : (s.setPc a).v = s.v := rfl
@[simp] theorem State.setPc_i (a : Word) : (s.setPc a).i = s.i := rfl
@[simp] theorem State.setPc_pc (a : Word) : (s.setPc a).pc = a := rfl
@[simp] theorem State.setPc_stack (a : Word) : (s.setPc a).stack = s.stack := rfl
@[simp] theorem State.setPc_dt (a : Word) : (s.setPc a).dt = s.dt := rfl
@[simp] theorem State.setPc_st (a : Word) : (s.setPc a).st = s.st := rfl
@[simp] theorem State.setPc_keys (a : Word) : (s.setPc a).keys = s.keys := rfl
@[simp] theorem State.setPc_kwait (a : Word) : (s.setPc a).kwait = s.kwait := rfl
@[simp] theorem State.setPc_fc (a : Word) : (s.setPc a).fc = s.fc := rfl
@[simp] theorem State.setPc_finished (a : Word) : (s.setPc a).finished = s.finished := rfl
@[simp] theorem State.setPc_fault (a : Word) : (s.setPc a).fault = s.fault := rfl
@[simp] theorem State.setPc_faultPc (a : Word) : (s.setPc a).faultPc = s.faultPc := rfl
@[simp] theorem State.setPc_faultInfo (a : Word) : (s.setPc a).faultInfo = s.faultInfo := rfl
@[simp] theorem State.setPc_fb (a : Word) : (s.setPc a).fb = s.fb := rfl
@[simp] theorem State.setPc_mem (a : Word) : (s.setPc a).mem = s.mem := rfl
@[simp] theorem State.setPc_rndIn (a : Word) : (s.setPc a).rndIn = s.rndIn := rfl
@[simp] theorem State.setPc_rndDraws (a : Word) : (s.setPc a).rndDraws = s.rndDraws := rfl
@[simp] theorem State.setPc_diag (a : Word) : (s.setPc a).diag = s.diag := rfl

/-! ## setDt -/

@[simp] theorem State.setDt_cfg (b : Byte) : (s.setDt b).cfg = s.cfg := rfl
@[simp] theorem State.setDt_v (b : Byte) : (s.setDt b).v = s.v := rfl
@[simp] theorem State.setDt_i (b : Byte) : (s.setDt b).i = s.i := rfl
@[simp] theorem State.setDt_pc (b : Byte) : (s.setDt b).pc = s.pc := rfl
@[simp] theorem State.setDt_stack (b : Byte) : (s.setDt b).stack = s.stack := rfl
@[simp] theorem State.setDt_dt (b : Byte) : (s.setDt b).dt = b := rfl
@[simp] theorem State.setDt_st (b : Byte) : (s.setDt b).st = s.st := rfl
@[simp] theorem State.setDt_keys (b : Byte) : (s.setDt b).keys = s.keys := rfl
@[simp] theorem State.setDt_kwait (b : Byte) : (s.setDt b).kwait = s.kwait := rfl
@[simp] theorem State.setDt_fc (b : Byte) : (s.setDt b).fc = s.fc := rfl
@[simp] theorem State.setDt_finished (b : Byte) : (s.setDt b).finished = s.finished := rfl
@[simp] theorem State.setDt_fault (b : Byte) : (s.setDt b).fault = s.fault := rfl
@[simp] theorem State.setDt_faultPc (b : Byte) : (s.setDt b).faultPc = s.faultPc := rfl
@[simp] theorem State.setDt_faultInfo (b : Byte) : (s.setDt b).faultInfo = s.faultInfo := rfl
@[simp] theorem State.setDt_fb (b : Byte) : (s.setDt b).fb = s.fb := rfl
@[simp] theorem State.setDt_mem (b : Byte) : (s.setDt b).mem = s.mem := rfl
@[simp] theorem State.setDt_rndIn (b : Byte) : (s.setDt b).rndIn = s.rndIn := rfl
@[simp] theorem State.setDt_rndDraws (b : Byte) : (s.setDt b).rndDraws = s.rndDraws := rfl
@[simp] theorem State.setDt_diag (b : Byte) : (s.setDt b).diag = s.diag := rfl

/-! ## setSt -/

@[simp] theorem State.setSt_cfg (b : Byte) : (s.setSt b).cfg = s.cfg := rfl
@[simp] theorem State.setSt_v (b : Byte) : (s.setSt b).v = s.v := rfl
@[simp] theorem State.setSt_i (b : Byte) : (s.setSt b).i = s.i := rfl
@[simp] theorem State.setSt_pc (b : Byte) : (s.setSt b).pc = s.pc := rfl
@[simp] theorem State.setSt_stack (b : Byte) : (s.setSt b).stack = s.stack := rfl
@[simp] theorem State.setSt_dt (b : Byte) : (s.setSt b).dt = s.dt := rfl
@[simp] theorem State.setSt_st (b : Byte) : (s.setSt b).st = b := rfl
@[simp] theorem State.setSt_keys (b : Byte) : (s.setSt b).keys = s.keys := rfl
@[simp] theorem State.setSt_kwait (b : Byte) : (s.setSt b).kwait = s.kwait := rfl
@[simp] theorem State.setSt_fc (b : Byte) : (s.setSt b).fc = s.fc := rfl
@[simp] theorem State.setSt_finished (b : Byte) : (s.setSt b).finished = s.finished := rfl
@[simp] theorem State.setSt_fault (b : Byte) : (s.setSt b).fault = s.fault := rfl
@[simp] theorem State.setSt_faultPc (b : Byte) : (s.setSt b).faultPc = s.faultPc := rfl
@[simp] theorem State.setSt_faultInfo (b : Byte) : (s.setSt b).faultInfo = s.faultInfo := rfl
@[simp] theorem State.setSt_fb (b : Byte) : (s.setSt b).fb = s.fb := rfl
@[simp] theorem State.setSt_mem (b : Byte) : (s.setSt b).mem = s.mem := rfl
@[simp] theorem State.setSt_rndIn (b : Byte) : (s.setSt b).rndIn = s.rndIn := rfl
@[simp] theorem State.setSt_rndDraws (b : Byte) : (s.setSt b).rndDraws = s.rndDraws := rfl
@[simp] theorem State.setSt_diag (b : Byte) : (s.setSt b).diag = s.diag := rfl

/-! ## setKwait -/

@[simp] theorem State.setKwait_cfg (b : Bool) : (s.setKwait b).cfg = s.cfg := rfl
@[simp] theorem State.setKwait_v (b : Bool) : (s.setKwait b).v = s.v := rfl
@[simp] theorem State.setKwait_i (b : Bool) : (s.setKwait b).i = s.i := rfl
@[simp] theorem State.setKwait_pc (b : Bool) : (s.setKwait b).pc = s.pc := rfl
@[simp] theorem State.setKwait_stack (b : Bool) : (s.setKwait b).stack = s.stack := rfl
@[simp] theorem State.setKwait_dt (b : Bool) : (s.setKwait b).dt = s.dt := rfl
@[simp] theorem State.setKwait_st (b : Bool) : (s.setKwait b).st = s.st := rfl
@[simp] theorem State.setKwait_keys (b : Bool) : (s.setKwait b).keys = s.keys := rfl
@[simp] theorem State.setKwait_kwait (b : Bool) : (s.setKwait b).kwait = b := rfl
@[simp] theorem State.setKwait_fc (b : Bool) : (s.setKwait b).fc = s.fc := rfl
@[simp] theorem State.setKwait_finished (b : Bool) : (s.setKwait b).finished = s.finished := rfl
@[simp] theorem State.setKwait_fault (b : Bool) : (s.setKwait b).fault = s.fault := rfl
@[simp] theorem State.setKwait_faultPc (b : Bool) : (s.setKwait b).faultPc = s.faultPc := rfl
@[simp] theorem State.setKwait_faultInfo (b : Bool) : (s.setKwait b).faultInfo = s.faultInfo := rfl
@[simp] theorem State.setKwait_fb (b : Bool) : (s.setKwait b).fb = s.fb := rfl
@[simp] theorem State.setKwait_mem (b : Bool) : (s.setKwait b).mem = s.mem := rfl
@[simp] theorem State.setKwait_rndIn (b : Bool) : (s.setKwait b).rndIn = s.rndIn := rfl
@[simp] theorem State.setKwait_rndDraws (b : Bool) : (s.setKwait b).rndDraws = s.rndDraws := rfl
@[simp] theorem State.setKwait_diag (b : Bool) : (s.setKwait b).diag = s.diag := rfl

/-! ## setFinished -/

@[simp] theorem State.setFinished_cfg (b : Bool) : (s.setFinished b).cfg = s.cfg := rfl
@[simp] theorem State.setFinished_v (b : Bool) : (s.setFinished b).v = s.v := rfl
@[simp] theorem State.setFinished_i (b : Bool) : (s.setFinished b).i = s.i := rfl
@[simp] theorem State.setFinished_pc (b : Bool) : (s.setFinished b).pc = s.pc := rfl
@[simp] theorem State.setFinished_stack (b : Bool) : (s.setFinished b).stack = s.stack := rfl
@[simp] theorem State.setFinished_dt (b : Bool) : (s.setFinished b).dt = s.dt := rfl
@[simp] theorem State.setFinished_st (b : Bool) : (s.setFinished b).st = s.st := rfl
@[simp] theorem State.setFinished_keys (b : Bool) : (s.setFinished b).keys = s.keys := rfl
@[simp] theorem State.setFinished_kwait (b : Bool) : (s.setFinished b).kwait = s.kwait := rfl
@[simp] theorem State.setFinished_fc (b : Bool) : (s.setFinished b).fc = s.fc := rfl
@[simp] theorem State.setFinished_finished (b : Bool) : (s.setFinished b).finished = b := rfl
@[simp] theorem State.setFinished_fault (b : Bool) : (s.setFinished b).fault = s.fault := rfl
@[simp] theorem State.setFinished_faultPc (b : Bool) : (s.setFinished b).faultPc = s.faultPc := rfl
@[simp] theorem State.setFinished_faultInfo (b : Bool) : (s.setFinished b).faultInfo = s.faultInfo := rfl
@[simp] theorem State.setFinished_fb (b : Bool) : (s.setFinished b).fb = s.fb := rfl
@[simp] theorem State.setFinished_mem (b : Bool) : (s.setFinished b).mem = s.mem := rfl
@[simp] theorem State.setFinished_rndIn (b : Bool) : (s.setFinished b).rndIn = s.rndIn := rfl
@[simp] theorem State.setFinished_rndDraws (b : Bool) : (s.setFinished b).rndDraws = s.rndDraws := rfl
@[simp] theorem State.setFinished_diag (b : Bool) : (s.setFinished b).diag = s.diag := rfl

/-! ## setStack -/

@[simp] theorem State.setStack_cfg (l : List Word) : (s.setStack l).cfg = s.cfg := rfl
@[simp] theorem State.setStack_v (l : List Word) : (s.setStack l).v = s.v := rfl
@[simp] theorem State.setStack_i (l : List Word) : (s.setStack l).i = s.i := rfl
@[simp] theorem State.setStack_pc (l : List Word) : (s.setStack l).pc = s.pc := rfl
@[simp] theorem State.setStack_stack (l : List Word) : (s.setStack l).stack = l := rfl
@[simp] theorem State.setStack_dt (l : List Word) : (s.setStack l).dt = s.dt := rfl
@[simp] theorem State.setStack_st (l : List Word) : (s.setStack l).st = s.st := rfl
@[simp] theorem State.setStack_keys (l : List Word) : (s.setStack l).keys = s.keys := rfl
@[simp] theorem State.setStack_kwait (l : List Word) : (s.setStack l).kwait = s.kwait := rfl
@[simp] theorem State.setStack_fc (l : List Word) : (s.setStack l).fc = s.fc := rfl
@[simp] theorem State.setStack_finished (l : List Word) : (s.setStack l).finished = s.finished := rfl
@[simp] theorem State.setStack_fault (l : List Word) : (s.setStack l).fault = s.fault := rfl
@[simp] theorem State.setStack_faultPc (l : List Word) : (s.setStack l).faultPc = s.faultPc := rfl
@[simp] theorem State.setStack_faultInfo (l : List Word) : (s.setStack l).faultInfo = s.faultInfo := rfl
@[simp] theorem State.setStack_fb (l : List Word) : (s.setStack l).fb = s.fb := rfl
@[simp] theorem State.setStack_mem (l : List Word) : (s.setStack l).mem = s.mem := rfl
@[simp] theorem State.setStack_rndIn (l : List Word) : (s.setStack l).rndIn = s.rndIn := rfl
@[simp] theorem State.setStack_rndDraws (l : List Word) : (s.setStack l).rndDraws = s.rndDraws := rfl
@[simp] theorem State.setStack_diag (l : List Word) : (s.setStack l).diag = s.diag := rfl

/-! ## setFb -/

@[simp] theorem State.setFb_cfg (l : List Byte) : (s.setFb l).cfg = s.cfg := rfl
@[simp] theorem State.setFb_v (l : List Byte) : (s.setFb l).v = s.v := rfl
@[simp] theorem State.setFb_i (l : List Byte) : (s.setFb l).i = s.i := rfl
@[simp] theorem State.setFb_pc (l : List Byte) : (s.setFb l).pc = s.pc := rfl
@[simp] theorem State.setFb_stack (l : List Byte) : (s.setFb l).stack = s.stack := rfl
@[simp] theorem State.setFb_dt (l : List Byte) : (s.setFb l).dt = s.dt := rfl
@[simp] theorem State.setFb_st (l : List Byte) : (s.setFb l).st = s.st := rfl
@[simp] theorem State.setFb_keys (l : List Byte) : (s.setFb l).keys = s.keys := rfl
@[simp] theorem State.setFb_kwait (l : List Byte) : (s.setFb l).kwait = s.kwait := rfl
@[simp] theorem State.setFb_fc (l : List Byte) : (s.setFb l).fc = s.fc := rfl
@[simp] theorem State.setFb_finished (l : List Byte) : (s.setFb l).finished = s.finished := rfl
@[simp] theorem State.setFb_fault (l : List Byte) : (s.setFb l).fault = s.fault := rfl
@[simp] theorem State.setFb_faultPc (l : List Byte) : (s.setFb l).faultPc = s.faultPc := rfl
@[simp] theorem State.setFb_faultInfo (l : List Byte) : (s.setFb l).faultInfo = s.faultInfo := rfl
@[simp] theorem State.setFb_fb (l : List Byte) : (s.setFb l).fb = l := rfl
@[simp] theorem State.setFb_mem (l : List Byte) : (s.setFb l).mem = s.mem := rfl
@[simp] theorem State.setFb_rndIn (l : List Byte) : (s.setFb l).rndIn = s.rndIn := rfl
@[simp] theorem State.setFb_rndDraws (l : List Byte) : (s.setFb l).rndDraws = s.rndDraws := rfl
@[simp] theorem State.setFb_diag (l : List Byte) : (s.setFb l).diag = s.diag := rfl

/-! ## setFc -/

@[simp] theorem State.setFc_cfg (b : Bool) : (s.setFc b).cfg = s.cfg := rfl
@[simp] theorem State.setFc_v (b : Bool) : (s.setFc b).v = s.v := rfl
@[simp] theorem State.setFc_i (b : Bool) : (s.setFc b).i = s.i := rfl
@[simp] theorem State.setFc_pc (b : Bool) : (s.setFc b).pc = s.pc := rfl
@[simp] theorem State.setFc_stack (b : Bool) : (s.setFc b).stack = s.stack := rfl
@[simp] theorem State.setFc_dt (b : Bool) : (s.setFc b).dt = s.dt := rfl
@[simp] theorem State.setFc_st (b : Bool) : (s.setFc b).st = s.st := rfl
@[simp] theorem State.setFc_keys (b : Bool) : (s.setFc b).keys = s.keys := rfl
@[simp] theorem State.setFc_kwait (b : Bool) : (s.setFc b).kwait = s.kwait := rfl
@[simp] theorem State.setFc_fc (b : Bool) : (s.setFc b).fc = b := rfl
@[simp] theorem State.setFc_finished (b : Bool) : (s.setFc b).finished = s.finished := rfl
@[simp] theorem State.setFc_fault (b : Bool) : (s.setFc b).fault = s.fault := rfl
@[simp] theorem State.setFc_faultPc (b : Bool) : (s.setFc b).faultPc = s.faultPc := rfl
@[simp] theorem State.setFc_faultInfo (b : Bool) : (s.setFc b).faultInfo = s.faultInfo := rfl
@[simp] theorem State.setFc_fb (b : Bool) : (s.setFc b).fb = s.fb := rfl
@[simp] theorem State.setFc_mem (b : Bool) : (s.setFc b).mem = s.mem := rfl
@[simp] theorem State.setFc_rndIn (b : Bool) : (s.setFc b).rndIn = s.rndIn := rfl
@[simp] theorem State.setFc_rndDraws (b : Bool) : (s.setFc b).rndDraws = s.rndDraws := rfl
@[simp] theorem State.setFc_diag (b : Bool) : (s.setFc b).diag = s.diag := rfl

/-! ## setByte -/

@[simp] theorem State.setByte_cfg (a : Nat) (x : Byte) : (s.setByte a x).cfg = s.cfg := rfl
@[simp] theorem State.setByte_v (a : Nat) (x : Byte) : (s.setByte a x).v = s.v := rfl
@[simp] theorem State.setByte_i (a : Nat) (x : Byte) : (s.setByte a x).i = s.i := rfl
@[simp] theorem State.setByte_pc (a : Nat) (x : Byte) : (s.setByte a x).pc = s.pc := rfl
@[simp] theorem State.setByte_stack (a : Nat) (x : Byte) : (s.setByte a x).stack = s.stack := rfl
@[simp] theorem State.setByte_dt (a : Nat) (x : Byte) : (s.setByte a x).dt = s.dt := rfl
@[simp] theorem State.setByte_st (a : Nat) (x : Byte) : (s.setByte a x).st = s.st := rfl
@[simp] theorem State.setByte_keys (a : Nat) (x : Byte) : (s.setByte a x).keys = s.keys := rfl
@[simp] theorem State.setByte_kwait (a : Nat) (x : Byte) : (s.setByte a x).kwait = s.kwait := rfl
@[simp] theorem State.setByte_fc (a : Nat) (x : Byte) : (s.setByte a x).fc = s.fc := rfl
@[simp] theorem State.setByte_finished (a : Nat) (x : Byte) : (s.setByte a x).finished = s.finished := rfl
@[simp] theorem State.setByte_fault (a : Nat) (x : Byte) : (s.setByte a x).fault = s.fault := rfl
@[simp] theorem State.setByte_faultPc (a : Nat) (x : Byte) : (s.setByte a x).faultPc = s.faultPc := rfl
@[simp] theorem State.setByte_faultInfo (a : Nat) (x : Byte) : (s.setByte a x).faultInfo = s.faultInfo := rfl
@[simp] theorem State.setByte_fb (a : Nat) (x : Byte) : (s.setByte a x).fb = s.fb := rfl
@[simp] theorem State.setByte_mem (a : Nat) (x : Byte) : (s.setByte a x).mem = Memory.write s.cfg a x s.mem := rfl
@[simp] theorem State.setByte_rndIn (a : Nat) (x : Byte) : (s.setByte a x).rndIn = s.rndIn := rfl
@[simp] theorem State.setByte_rndDraws (a : Nat) (x : Byte) : (s.setByte a x).rndDraws = s.rndDraws := rfl
@[simp] theorem State.setByte_diag (a : Nat) (x : Byte) : (s.setByte a x).diag = s.diag := rfl

/-! ## setKey -/

@[simp] theorem State.setKey_cfg (k : Fin 16) (b : Bool) : (s.setKey k b).cfg = s.cfg := rfl
@[simp] theorem State.setKey_v (k : Fin 16) (b : Bool) : (s.setKey k b).v = s.v := rfl
@[simp] theorem State.setKey_i (k : Fin 16) (b : Bool) : (s.setKey k b).i = s.i := rfl
@[simp] theorem State.setKey_pc (k : Fin 16) (b : Bool) : (s.setKey k b).pc = s.pc := rfl
@[simp] theorem State.setKey_stack (k : Fin 16) (b : Bool) : (s.setKey k b).stack = s.stack := rfl
@[simp] theorem State.setKey_dt (k : Fin 16) (b : Bool) : (s.setKey k b).dt = s.dt := rfl
@[simp] theorem State.setKey_st (k : Fin 16) (b : Bool) : (s.setKey k b).st = s.st := rfl
@[simp] theorem State.setKey_keys (k : Fin 16) (b : Bool) : (s.setKey k b).keys = s.keys.set k.val b := rfl
@[simp] theorem State.setKey_kwait (k : Fin 16) (b : Bool) : (s.setKey k b).kwait = s.kwait := rfl
@[simp] theorem State.setKey_fc (k : Fin 16) (b : Bool) : (s.setKey k b).fc = s.fc := rfl
@[simp] theorem State.setKey_finished (k : Fin 16) (b : Bool) : (s.setKey k b).finished = s.finished := rfl
@[simp] theorem State.setKey_fault (k : Fin 16) (b : Bool) : (s.setKey k b).fault = s.fault := rfl
@[simp] theorem State.setKey_faultPc (k : Fin 16) (b : Bool) : (s.setKey k b).faultPc = s.faultPc := rfl
@[simp] theorem State.setKey_faultInfo (k : Fin 16) (b : Bool) : (s.setKey k b).faultInfo = s.faultInfo := rfl
@[simp] theorem State.setKey_fb (k : Fin 16) (b : Bool) : (s.setKey k b).fb = s.fb := rfl
@[simp] theorem State.setKey_mem (k : Fin 16) (b : Bool) : (s.setKey k b).mem = s.mem := rfl
@[simp] theorem State.setKey_rndIn (k : Fin 16) (b : Bool) : (s.setKey k b).rndIn = s.rndIn := rfl
@[simp] theorem State.setKey_rndDraws (k : Fin 16) (b : Bool) : (s.setKey k b).rndDraws = s.rndDraws := rfl
@[simp] theorem State.setKey_diag (k : Fin 16) (b : Bool) : (s.setKey k b).diag = s.diag := rfl

/-! ## raise -/

@[simp] theorem State.raise_cfg (c : FaultCode) (n : FaultInfo) : (s.raise c n).cfg = s.cfg := rfl
@[simp] theorem State.raise_v (c : FaultCode) (n : FaultInfo) : (s.raise c n).v = s.v := rfl
@[simp] theorem State.raise_i (c : FaultCode) (n : FaultInfo) : (s.raise c n).i = s.i := rfl
@[simp] theorem State.raise_pc (c : FaultCode) (n : FaultInfo) : (s.raise c n).pc = s.pc := rfl
@[simp] theorem State.raise_stack (c : FaultCode) (n : FaultInfo) : (s.raise c n).stack = s.stack := rfl
@[simp] theorem State.raise_dt (c : FaultCode) (n : FaultInfo) : (s.raise c n).dt = s.dt := rfl
@[simp] theorem State.raise_st (c : FaultCode) (n : FaultInfo) : (s.raise c n).st = s.st := rfl
@[simp] theorem State.raise_keys (c : FaultCode) (n : FaultInfo) : (s.raise c n).keys = s.keys := rfl
@[simp] theorem State.raise_kwait (c : FaultCode) (n : FaultInfo) : (s.raise c n).kwait = s.kwait := rfl
@[simp] theorem State.raise_fc (c : FaultCode) (n : FaultInfo) : (s.raise c n).fc = s.fc := rfl
@[simp] theorem State.raise_finished (c : FaultCode) (n : FaultInfo) : (s.raise c n).finished = s.finished := rfl
@[simp] theorem State.raise_fault (c : FaultCode) (n : FaultInfo) : (s.raise c n).fault = some c := rfl
@[simp] theorem State.raise_faultPc (c : FaultCode) (n : FaultInfo) : (s.raise c n).faultPc = s.pc := rfl
@[simp] theorem State.raise_faultInfo (c : FaultCode) (n : FaultInfo) : (s.raise c n).faultInfo = n := rfl
@[simp] theorem State.raise_fb (c : FaultCode) (n : FaultInfo) : (s.raise c n).fb = s.fb := rfl
@[simp] theorem State.raise_mem (c : FaultCode) (n : FaultInfo) : (s.raise c n).mem = s.mem := rfl
@[simp] theorem State.raise_rndIn (c : FaultCode) (n : FaultInfo) : (s.raise c n).rndIn = s.rndIn := rfl
@[simp] theorem State.raise_rndDraws (c : FaultCode) (n : FaultInfo) : (s.raise c n).rndDraws = s.rndDraws := rfl
@[simp] theorem State.raise_diag (c : FaultCode) (n : FaultInfo) : (s.raise c n).diag = s.diag := rfl

/-! ## advance -/

@[simp] theorem State.advance_cfg : s.advance.cfg = s.cfg := rfl
@[simp] theorem State.advance_v : s.advance.v = s.v := rfl
@[simp] theorem State.advance_i : s.advance.i = s.i := rfl
@[simp] theorem State.advance_pc : s.advance.pc = s.pc + 2 := rfl
@[simp] theorem State.advance_stack : s.advance.stack = s.stack := rfl
@[simp] theorem State.advance_dt : s.advance.dt = s.dt := rfl
@[simp] theorem State.advance_st : s.advance.st = s.st := rfl
@[simp] theorem State.advance_keys : s.advance.keys = s.keys := rfl
@[simp] theorem State.advance_kwait : s.advance.kwait = s.kwait := rfl
@[simp] theorem State.advance_fc : s.advance.fc = s.fc := rfl
@[simp] theorem State.advance_finished : s.advance.finished = s.finished := rfl
@[simp] theorem State.advance_fault : s.advance.fault = s.fault := rfl
@[simp] theorem State.advance_faultPc : s.advance.faultPc = s.faultPc := rfl
@[simp] theorem State.advance_faultInfo : s.advance.faultInfo = s.faultInfo := rfl
@[simp] theorem State.advance_fb : s.advance.fb = s.fb := rfl
@[simp] theorem State.advance_mem : s.advance.mem = s.mem := rfl
@[simp] theorem State.advance_rndIn : s.advance.rndIn = s.rndIn := rfl
@[simp] theorem State.advance_rndDraws : s.advance.rndDraws = s.rndDraws := rfl
@[simp] theorem State.advance_diag : s.advance.diag = s.diag := rfl

/-! ## afterDraw -/

@[simp] theorem State.afterDraw_cfg : s.afterDraw.cfg = s.cfg := rfl
@[simp] theorem State.afterDraw_v : s.afterDraw.v = s.v := rfl
@[simp] theorem State.afterDraw_i : s.afterDraw.i = s.i := rfl
@[simp] theorem State.afterDraw_pc : s.afterDraw.pc = s.pc := rfl
@[simp] theorem State.afterDraw_stack : s.afterDraw.stack = s.stack := rfl
@[simp] theorem State.afterDraw_dt : s.afterDraw.dt = s.dt := rfl
@[simp] theorem State.afterDraw_st : s.afterDraw.st = s.st := rfl
@[simp] theorem State.afterDraw_keys : s.afterDraw.keys = s.keys := rfl
@[simp] theorem State.afterDraw_kwait : s.afterDraw.kwait = s.kwait := rfl
@[simp] theorem State.afterDraw_fc : s.afterDraw.fc = s.fc := rfl
@[simp] theorem State.afterDraw_finished : s.afterDraw.finished = s.finished := rfl
@[simp] theorem State.afterDraw_fault : s.afterDraw.fault = s.fault := rfl
@[simp] theorem State.afterDraw_faultPc : s.afterDraw.faultPc = s.faultPc := rfl
@[simp] theorem State.afterDraw_faultInfo : s.afterDraw.faultInfo = s.faultInfo := rfl
@[simp] theorem State.afterDraw_fb : s.afterDraw.fb = s.fb := rfl
@[simp] theorem State.afterDraw_mem : s.afterDraw.mem = s.mem := rfl
@[simp] theorem State.afterDraw_rndIn : s.afterDraw.rndIn = s.rndIn.tail := rfl
@[simp] theorem State.afterDraw_rndDraws : s.afterDraw.rndDraws = s.rndDraws + 1 := rfl
@[simp] theorem State.afterDraw_diag : s.afterDraw.diag = s.diag := rfl

/-! ## tickBegin -/

@[simp] theorem State.tickBegin_cfg : s.tickBegin.cfg = s.cfg := rfl
@[simp] theorem State.tickBegin_v : s.tickBegin.v = s.v := rfl
@[simp] theorem State.tickBegin_i : s.tickBegin.i = s.i := rfl
@[simp] theorem State.tickBegin_pc : s.tickBegin.pc = s.pc := rfl
@[simp] theorem State.tickBegin_stack : s.tickBegin.stack = s.stack := rfl
@[simp] theorem State.tickBegin_dt : s.tickBegin.dt = decay s.dt := rfl
@[simp] theorem State.tickBegin_st : s.tickBegin.st = decay s.st := rfl
@[simp] theorem State.tickBegin_keys : s.tickBegin.keys = s.keys := rfl
@[simp] theorem State.tickBegin_kwait : s.tickBegin.kwait = s.kwait := rfl
@[simp] theorem State.tickBegin_fc : s.tickBegin.fc = false := rfl
@[simp] theorem State.tickBegin_finished : s.tickBegin.finished = s.finished := rfl
@[simp] theorem State.tickBegin_fault : s.tickBegin.fault = s.fault := rfl
@[simp] theorem State.tickBegin_faultPc : s.tickBegin.faultPc = s.faultPc := rfl
@[simp] theorem State.tickBegin_faultInfo : s.tickBegin.faultInfo = s.faultInfo := rfl
@[simp] theorem State.tickBegin_fb : s.tickBegin.fb = s.fb := rfl
@[simp] theorem State.tickBegin_mem : s.tickBegin.mem = s.mem := rfl
@[simp] theorem State.tickBegin_rndIn : s.tickBegin.rndIn = s.rndIn := rfl
@[simp] theorem State.tickBegin_rndDraws : s.tickBegin.rndDraws = s.rndDraws := rfl
@[simp] theorem State.tickBegin_diag : s.tickBegin.diag = none := rfl

end Sys2Proof.Machine
end

