-- ==== Sys2Proof/Laws/Registers.lean ====
section
/-! SUPPORT. What the register operations do: read after write, and the skip, flag and draw operations field by field. -/

namespace Sys2Proof.Machine

variable (s : State)

/-- Read after write: the written register holds the byte, every other one its old value. -/
theorem State.getV_setV (r q : Reg) (b : Byte) : (s.setV r b).getV q = if q = r then b else s.getV q := by
  simp [State.setV, State.getV, Vector.getElem_set, BitVec.toNat_inj, eq_comm]

@[simp] theorem State.getV_setV_same (r : Reg) (b : Byte) : (s.setV r b).getV r = b := by simp [State.getV_setV]

theorem State.getV_setV_ne {r q : Reg} (b : Byte) (h : q ≠ r) : (s.setV r b).getV q = s.getV q := by
  simp [State.getV_setV, h]

/-- An update that leaves `v` alone leaves every register alone. -/
theorem State.getV_congr {s t : State} (h : t.v = s.v) (q : Reg) : t.getV q = s.getV q := by simp [State.getV, h]

@[simp] theorem State.getV_setI (a : Word) (q : Reg) : (s.setI a).getV q = s.getV q := rfl
@[simp] theorem State.getV_setPc (a : Word) (q : Reg) : (s.setPc a).getV q = s.getV q := rfl
@[simp] theorem State.getV_advance (q : Reg) : s.advance.getV q = s.getV q := rfl
@[simp] theorem State.getV_setDt (b : Byte) (q : Reg) : (s.setDt b).getV q = s.getV q := rfl
@[simp] theorem State.getV_setSt (b : Byte) (q : Reg) : (s.setSt b).getV q = s.getV q := rfl
@[simp] theorem State.getV_setKwait (b : Bool) (q : Reg) : (s.setKwait b).getV q = s.getV q := rfl
@[simp] theorem State.getV_setFinished (b : Bool) (q : Reg) : (s.setFinished b).getV q = s.getV q := rfl
@[simp] theorem State.getV_setStack (l : List Word) (q : Reg) : (s.setStack l).getV q = s.getV q := rfl
@[simp] theorem State.getV_setFb (l : List Byte) (q : Reg) : (s.setFb l).getV q = s.getV q := rfl
@[simp] theorem State.getV_setFc (b : Bool) (q : Reg) : (s.setFc b).getV q = s.getV q := rfl
@[simp] theorem State.getV_setByte (a : Nat) (x : Byte) (q : Reg) : (s.setByte a x).getV q = s.getV q := rfl
@[simp] theorem State.getV_raise (c : FaultCode) (n : FaultInfo) (q : Reg) : (s.raise c n).getV q = s.getV q := rfl
@[simp] theorem State.getV_afterDraw (q : Reg) : s.afterDraw.getV q = s.getV q := rfl
@[simp] theorem State.getV_tickBegin (q : Reg) : s.tickBegin.getV q = s.getV q := rfl

/-- A skip writes PC and nothing else. -/
theorem State.skipIf_eq (c : Bool) : s.skipIf c = s.setPc (if c then s.pc + 4 else s.pc + 2) := by
  cases c <;> rfl

/-- The result and flag writes of the ALU write general registers and nothing else. -/
theorem State.writeThenFlag_eq (x : Reg) (r f : Byte) : s.writeThenFlag x r f = (s.setV x r).setV vf f := rfl

/-- VF holds the flag, X the result unless X is VF, every other register its old value (R68). -/
theorem State.getV_writeThenFlag (x q : Reg) (r f : Byte) :
    (s.writeThenFlag x r f).getV q = if q = vf then f else if q = x then r else s.getV q := by
  simp [State.writeThenFlag, State.getV_setV]

/-- The same for the shifts, in the order SHIFT_VF_ORDER gives (R68). -/
theorem State.getV_writeShift (x q : Reg) (r f : Byte) :
    (s.writeShift x r f).getV q =
      match s.cfg.shiftVfOrder with
      | .flagThenDest => if q = x then r else if q = vf then f else s.getV q
      | .destThenFlag => if q = vf then f else if q = x then r else s.getV q := by
  unfold State.writeShift
  cases s.cfg.shiftVfOrder <;> simp [State.getV_setV]

/-- The shifts write `v` and nothing else. -/
theorem State.writeShift_eq (x : Reg) (r f : Byte) :
    ∃ a b c d, s.writeShift x r f = (s.setV a b).setV c d := by
  unfold State.writeShift
  cases s.cfg.shiftVfOrder <;> exact ⟨_, _, _, _, rfl⟩

/-- A push keeps everything but the stack, which gains its entry, and fails exactly on a full stack (R23). -/
theorem State.push_eq_some {a : Word} {t : State} :
    s.push a = some t ↔ s.stack.length < s.cfg.stackDepth ∧ t = s.setStack (a :: s.stack) := by
  unfold State.push
  split
  · exact ⟨fun h => (nomatch h), fun h => by omega⟩
  · exact ⟨fun h => ⟨by omega, (Option.some.inj h).symm⟩, fun h => by rw [h.2]⟩

/-- A pop gives the last pushed entry, keeps everything but the stack, and fails exactly on an empty stack (R23). -/
theorem State.pop_eq_some {a : Word} {t : State} :
    s.pop = some (a, t) ↔ ∃ rest, s.stack = a :: rest ∧ t = s.setStack rest := by
  unfold State.pop
  cases s.stack with
  | nil => simp
  | cons b l =>
    simp only [Option.some.injEq, Prod.mk.injEq, List.cons.injEq]
    exact ⟨fun ⟨h1, h2⟩ => ⟨l, ⟨h1, rfl⟩, h2.symm⟩, fun ⟨r, ⟨h1, h2⟩, h3⟩ => ⟨h1, by rw [h3, h2]⟩⟩

end Sys2Proof.Machine
end

