-- ==== Sys2Proof/Laws/Display.lean ====
section
/-! SUPPORT. What the blitter's operations do to the frame buffer, byte by byte (43_display.md R88–R92). -/

namespace Sys2Proof.Machine

variable (k : Canvas)

@[simp] theorem Canvas.xorByte_length (b : Nat) (m : Byte) : (k.xorByte b m).fb.length = k.fb.length := by
  simp [Canvas.xorByte]

/-- XorByte changes byte b by exclusive or and no other byte. -/
theorem Canvas.xorByte_getD (b a : Nat) (m : Byte) (hb : b < k.fb.length) :
    (k.xorByte b m).fb.getD a 0 = if a = b then k.fb.getD a 0 ^^^ m else k.fb.getD a 0 := by
  unfold Canvas.xorByte
  simp only [List.getD_eq_getElem?_getD, List.getElem?_set]
  split
  · subst_vars; simp [hb]
  · rw [if_neg (by omega)]

/-- A collision is a set source bit landing on a set destination bit (R88). -/
theorem Canvas.xorByte_collided (b : Nat) (m : Byte) :
    (k.xorByte b m).collided = (k.collided || (k.fb.getD b 0 &&& m) != 0) := by
  have h : ∀ old : Byte, old &&& ~~~(old ^^^ m) = old &&& m := by
    intro old
    ext j hj
    simp only [BitVec.getElem_and, BitVec.getElem_not, BitVec.getElem_xor]
    cases old[j] <;> cases m[j] <;> rfl
  simp only [Canvas.xorByte, h]

/-- A row is one XorByte, or two at different bytes of the same display row. -/
theorem Canvas.blitRow_eq (c : Config) (x0 yy : Nat) (row : Byte) :
    k.blitRow c x0 yy row = k.xorByte (yy * c.bytesPerRow + x0 / 8) (row >>> (x0 % 8)) ∨
    (x0 % 8 ≠ 0 ∧ (x0 / 8 + 1) % c.bytesPerRow ≠ x0 / 8 ∧
      k.blitRow c x0 yy row =
        (k.xorByte (yy * c.bytesPerRow + x0 / 8) (row >>> (x0 % 8))).xorByte
          (yy * c.bytesPerRow + (x0 / 8 + 1) % c.bytesPerRow) (row <<< (8 - x0 % 8))) := by
  unfold Canvas.blitRow
  by_cases h : x0 % 8 ≠ 0 ∧ (x0 / 8 + 1) % c.bytesPerRow ≠ x0 / 8
  · exact .inr ⟨h.1, h.2, by simp only; rw [if_pos h]⟩
  · exact .inl (by simp only; rw [if_neg h])

@[simp] theorem Canvas.blitRow_length (c : Config) (x0 yy : Nat) (row : Byte) :
    (k.blitRow c x0 yy row).fb.length = k.fb.length := by
  rcases Canvas.blitRow_eq k c x0 yy row with h | ⟨_, _, h⟩ <;> simp [h]

@[simp] theorem Canvas.blitRows_length (c : Config) (x0 y0 r : Nat) (rows : List Byte) (k : Canvas) :
    (Canvas.blitRows c x0 y0 r rows k).fb.length = k.fb.length := by
  induction rows generalizing r k with
  | nil => rfl
  | cons row rows ih =>
    unfold Canvas.blitRows
    rw [ih]
    cases rowTarget c y0 r <;> simp

/-- A blit keeps the frame buffer's size. -/
@[simp] theorem blit_length (c : Config) (x y : Nat) (rows fb : List Byte) : (blit c x y rows fb).fb.length = fb.length := by
  simp [blit]

@[simp] theorem clearFb_length (fb : List Byte) : (clearFb fb).length = fb.length := by simp [clearFb]

/-- A drawn row lies on the display. -/
theorem rowTarget_lt {c : Config} {y0 r yy : Nat} (hh : 0 < c.height) (h : rowTarget c y0 r = some yy) : yy < c.height := by
  unfold rowTarget at h
  split at h
  · cases h; assumption
  · split at h
    · cases h; exact Nat.mod_lt _ hh
    · cases h

/-- The blit's write-back changes FB, FC and, on a collision only, VF (R95). -/
theorem State.applyCanvas_eq (s : State) (k : Canvas) :
    s.applyCanvas k = if k.collided then ((s.setFb k.fb).setFc true).setV vf 1 else (s.setFb k.fb).setFc true := by
  unfold State.applyCanvas
  split <;> rfl

end Sys2Proof.Machine
end

