-- ==== Sys2Proof/Laws/Memory.lean ====
section
/-! SUPPORT. What the memory operations do: the canonical form is kept by all of them, a read after a write gives the byte written,
and every other address reads as before (20_memory.md R46). -/

namespace Sys2Proof.Machine

/-! ## Lists of cells -/

/-- A lookup below every listed address finds nothing. -/
theorem Memory.lookup_eq_none_of_lt {a : Nat} {m : List Host.Cell} (h : ∀ p ∈ m, a < p.1) : Memory.lookup a m = none := by
  induction m with
  | nil => rfl
  | cons p m ih =>
    obtain ⟨b, y⟩ := p
    have hb : a < b := h (b, y) List.mem_cons_self
    rw [Memory.lookup, if_neg (by omega)]
    exact ih fun q hq => h q (List.mem_cons_of_mem _ hq)

theorem Memory.lookup_insert (a b : Nat) (x : Byte) (m : List Host.Cell) :
    Memory.lookup b (Memory.insert a x m) = if b = a then some x else Memory.lookup b m := by
  induction m with
  | nil => simp [Memory.insert, Memory.lookup]
  | cons p m ih =>
    obtain ⟨c, y⟩ := p
    unfold Memory.insert
    split
    · simp [Memory.lookup]
    · split
      · subst_vars; simp only [Memory.lookup]; split <;> rfl
      · simp only [Memory.lookup, ih]; split <;> split <;> first | rfl | (subst_vars; contradiction)

theorem Memory.lookup_erase {a : Nat} (b : Nat) {m : List Host.Cell} (h : m.Pairwise fun p q => p.1 < q.1) :
    Memory.lookup b (Memory.erase a m) = if b = a then none else Memory.lookup b m := by
  induction m with
  | nil => simp [Memory.erase, Memory.lookup]
  | cons p m ih =>
    obtain ⟨c, y⟩ := p
    obtain ⟨hlt, hm⟩ := List.pairwise_cons.mp h
    unfold Memory.erase
    split
    · subst_vars
      simp only [Memory.lookup]
      split
      · subst_vars; exact Memory.lookup_eq_none_of_lt hlt
      · rfl
    · simp only [Memory.lookup, ih hm]; split <;> split <;> first | rfl | (subst_vars; contradiction)

theorem Memory.mem_insert {a : Nat} {x : Byte} {m : List Host.Cell} {p : Host.Cell} (h : p ∈ Memory.insert a x m) :
    p = (a, x) ∨ p ∈ m := by
  induction m with
  | nil => simpa [Memory.insert] using h
  | cons q m ih =>
    obtain ⟨c, y⟩ := q
    unfold Memory.insert at h
    split at h
    · simpa using h
    · split at h
      · rcases List.mem_cons.mp h with h | h
        · exact .inl h
        · exact .inr (List.mem_cons_of_mem _ h)
      · rcases List.mem_cons.mp h with h | h
        · exact .inr (h ▸ List.mem_cons_self)
        · exact (ih h).imp id (List.mem_cons_of_mem _)

theorem Memory.mem_erase {a : Nat} {m : List Host.Cell} {p : Host.Cell} (h : p ∈ Memory.erase a m) : p ∈ m := by
  induction m with
  | nil => simp [Memory.erase] at h
  | cons q m ih =>
    obtain ⟨c, y⟩ := q
    unfold Memory.erase at h
    split at h
    · exact List.mem_cons_of_mem _ h
    · rcases List.mem_cons.mp h with h | h
      · exact h ▸ List.mem_cons_self
      · exact List.mem_cons_of_mem _ (ih h)

theorem Memory.insert_rising (a : Nat) (x : Byte) {m : List Host.Cell} (h : m.Pairwise fun p q => p.1 < q.1) :
    (Memory.insert a x m).Pairwise fun p q => p.1 < q.1 := by
  induction m with
  | nil => simp [Memory.insert]
  | cons q m ih =>
    obtain ⟨c, y⟩ := q
    obtain ⟨hlt, hm⟩ := List.pairwise_cons.mp h
    unfold Memory.insert
    split
    · refine List.pairwise_cons.mpr ⟨fun p hp => ?_, h⟩
      rcases List.mem_cons.mp hp with rfl | hp
      · assumption
      · exact Nat.lt_trans ‹a < c› (hlt p hp)
    · split
      · exact List.pairwise_cons.mpr ⟨fun p hp => by subst_vars; exact hlt p hp, hm⟩
      · refine List.pairwise_cons.mpr ⟨fun p hp => ?_, ih hm⟩
        rcases Memory.mem_insert hp with rfl | hp
        · show c < a; omega
        · exact hlt p hp

theorem Memory.erase_rising (a : Nat) {m : List Host.Cell} (h : m.Pairwise fun p q => p.1 < q.1) :
    (Memory.erase a m).Pairwise fun p q => p.1 < q.1 := by
  induction m with
  | nil => simp [Memory.erase]
  | cons q m ih =>
    obtain ⟨c, y⟩ := q
    obtain ⟨hlt, hm⟩ := List.pairwise_cons.mp h
    unfold Memory.erase
    split
    · exact hm
    · exact List.pairwise_cons.mpr ⟨fun p hp => hlt p (Memory.mem_erase hp), ih hm⟩

/-- A write inside memory keeps the canonical form. -/
theorem Memory.write_wf {c : Config} {a : Nat} (x : Byte) {m : List Host.Cell} (h : Memory.Wf c m) (ha : a < c.memSize) :
    Memory.Wf c (Memory.write c a x m) := by
  obtain ⟨h1, h2, h3⟩ := h
  unfold Memory.write
  split
  · exact ⟨Memory.erase_rising a h1, fun p hp => h2 p (Memory.mem_erase hp), fun p hp => h3 p (Memory.mem_erase hp)⟩
  · refine ⟨Memory.insert_rising a x h1, fun p hp => ?_, fun p hp => ?_⟩ <;> rcases Memory.mem_insert hp with rfl | hp
    · assumption
    · exact h2 p hp
    · exact ha
    · exact h3 p hp

/-! ## The state's memory operations -/

variable (s : State)

/-- A read after a write gives the byte written; every other address reads as before. -/
theorem State.byteAt_setByte (h : s.mem.Pairwise fun p q => p.1 < q.1) (a b : Nat) (x : Byte) :
    (s.setByte a x).byteAt b = if b = a then x else s.byteAt b := by
  unfold State.byteAt
  rw [State.setByte_mem, State.setByte_cfg, Memory.write]
  split
  · rw [Memory.lookup_erase b h]; split <;> simp_all
  · rw [Memory.lookup_insert]; split <;> simp_all

/-- A read depends on the memory and the parameters alone. -/
theorem State.byteAt_congr {s t : State} (hc : t.cfg = s.cfg) (hm : t.mem = s.mem) (a : Nat) : t.byteAt a = s.byteAt a := by
  simp [State.byteAt, hc, hm]

theorem State.memRead_congr {s t : State} (hc : t.cfg = s.cfg) (hm : t.mem = s.mem) (a : Nat) : t.memRead a = s.memRead a := by
  simp [State.memRead, State.byteAt, hc, hm]

theorem State.fetch16_congr {s t : State} (hc : t.cfg = s.cfg) (hm : t.mem = s.mem) (a : Nat) : t.fetch16 a = s.fetch16 a := by
  simp [State.fetch16, State.byteAt, hc, hm]

/-- A write succeeds exactly inside memory, and then replaces one byte (R37). -/
theorem State.memWrite_eq_some {a : Nat} {x : Byte} {t : State} :
    s.memWrite a x = some t ↔ a < s.cfg.memSize ∧ t = s.setByte a x := by
  unfold State.memWrite
  split
  · exact ⟨fun h => ⟨by assumption, (Option.some.inj h).symm⟩, fun h => by rw [h.2]⟩
  · exact ⟨fun h => (nomatch h), fun h => absurd h.1 (by assumption)⟩

theorem State.memRead_setByte (h : s.mem.Pairwise fun p q => p.1 < q.1) (a b : Nat) (x : Byte) (ha : a < s.cfg.memSize) :
    (s.setByte a x).memRead b = if b = a then some x else s.memRead b := by
  unfold State.memRead
  rw [State.setByte_cfg, State.byteAt_setByte s h]
  split <;> split <;> simp_all

/-- Everything a run of byte writes can do: it changes only the memory and keeps its canonical form; where all addresses are inside
memory it writes every byte and no other; else it answers the first address past memory. -/
theorem State.storeBytes_spec (xs : List Byte) (base : Nat) (s : State) (h : Memory.Wf s.cfg s.mem) :
    ∃ m, (s.storeBytes base xs).1 = { s with mem := m } ∧ Memory.Wf s.cfg m ∧
      ((s.storeBytes base xs).2 =
        if base + xs.length ≤ s.cfg.memSize ∨ xs = [] then none else some (max base s.cfg.memSize)) ∧
      (base + xs.length ≤ s.cfg.memSize → ∀ a, ({ s with mem := m } : State).byteAt a =
        if base ≤ a ∧ a < base + xs.length then xs.getD (a - base) 0 else s.byteAt a) := by
  induction xs generalizing base s with
  | nil => exact ⟨s.mem, rfl, h, by simp [State.storeBytes], fun _ a =>
    (if_neg (by rintro ⟨h1, h2⟩; simp only [List.length_nil] at h2; omega)).symm⟩
  | cons x xs ih =>
    unfold State.storeBytes State.memWrite
    by_cases hb : base < s.cfg.memSize
    · rw [if_pos hb]
      have hw : Memory.Wf (s.setByte base x).cfg (s.setByte base x).mem := Memory.write_wf x h hb
      obtain ⟨m, e1, e2, e3, e4⟩ := ih (base + 1) (s.setByte base x) hw
      refine ⟨m, e1, e2, ?_, fun hl a => ?_⟩
      · rw [e3]
        simp only [State.setByte_cfg, List.length_cons]
        cases xs with
        | nil => simp; omega
        | cons y ys =>
          simp only [List.length_cons, reduceCtorEq, or_false]
          split <;> split <;> first | rfl | omega | (congr 1; omega)
      · have e := e4 (by simp only [State.setByte_cfg, List.length_cons] at hl ⊢; omega) a
        have e' : ({ s.setByte base x with mem := m } : State).byteAt a = ({ s with mem := m } : State).byteAt a := rfl
        rw [← e', e, State.byteAt_setByte s h.1, List.length_cons]
        by_cases h1 : a = base
        · subst h1
          rw [if_neg (by omega), if_pos rfl, if_pos (by omega), Nat.sub_self, List.getD_cons_zero]
        · by_cases h2 : base + 1 ≤ a ∧ a < base + 1 + xs.length
          · have h3 : a - base = (a - (base + 1)) + 1 := by omega
            rw [if_pos h2, if_pos (by omega), h3, List.getD_cons_succ]
          · rw [if_neg h2, if_neg h1, if_neg (by omega)]
    · rw [if_neg hb]
      refine ⟨s.mem, rfl, h, ?_, fun hl => by simp only [List.length_cons] at hl; omega⟩
      simp only [List.length_cons, reduceCtorEq, or_false]
      rw [if_neg (by omega)]
      congr 1
      omega

/-- Everything a run of register loads can do: it changes only the registers; where all addresses are inside memory each named
register holds its byte and every other register its old value; and it is cut short exactly where some address is past memory. -/
theorem State.loadBytes_spec (base : Nat) (rs : List Reg) (s : State) :
    ∃ v, (s.loadBytes base rs).1 = { s with v := v } ∧
      ((s.loadBytes base rs).2 = none ↔ ∀ r ∈ rs, base + r.toNat < s.cfg.memSize) ∧
      ∀ q, q ∉ rs → ({ s with v := v } : State).getV q = s.getV q := by
  induction rs generalizing s with
  | nil => exact ⟨s.v, rfl, by simp [State.loadBytes], fun _ _ => rfl⟩
  | cons r rs ih =>
    unfold State.loadBytes State.memRead
    by_cases hb : base + r.toNat < s.cfg.memSize
    · rw [if_pos hb]
      obtain ⟨v, e1, e2, e3⟩ := ih (s.setV r (s.byteAt (base + r.toNat)))
      refine ⟨v, e1, by simpa [hb] using e2, fun q hq => ?_⟩
      have hq' := e3 q fun h => hq (List.mem_cons_of_mem _ h)
      have hne : q ≠ r := by rintro rfl; exact hq List.mem_cons_self
      exact hq'.trans (State.getV_setV_ne s _ hne)
    · rw [if_neg hb]
      exact ⟨s.v, rfl, by simp [hb], fun _ _ => rfl⟩

/-- Where all addresses are inside memory, each named register is loaded from its own address. -/
theorem State.getV_loadBytes (base : Nat) (rs : List Reg) (s : State) (h : ∀ r ∈ rs, base + r.toNat < s.cfg.memSize) (q : Reg) :
    (s.loadBytes base rs).1.getV q = if q ∈ rs then s.byteAt (base + q.toNat) else s.getV q := by
  induction rs generalizing s with
  | nil => simp [State.loadBytes]
  | cons r rs ih =>
    have hb : base + r.toNat < s.cfg.memSize := h r List.mem_cons_self
    unfold State.loadBytes State.memRead
    rw [if_pos hb]
    simp only
    rw [ih (s.setV r (s.byteAt (base + r.toNat))) fun p hp => h p (List.mem_cons_of_mem _ hp), State.getV_setV]
    have e : ∀ a, (s.setV r (s.byteAt (base + r.toNat))).byteAt a = s.byteAt a := fun _ => rfl
    rw [e]
    by_cases h1 : q = r
    · subst h1; simp
    · simp [h1]

end Sys2Proof.Machine
end

