-- ==== Sys2Proof/Laws/Frames.lean ====
section
/-! SUPPORT. The frame of each update, and how frames compose: an instruction built from updates leaves unchanged whatever all of them
do. Also what the updates do to the memory and key reads, and where they leave PC. -/

namespace Sys2Proof.Machine

variable (s : State)

/-! ## Memory and key reads through the updates -/

@[simp] theorem State.memRead_setV (r : Reg) (b : Byte) (m : Nat) : (s.setV r b).memRead m = s.memRead m := rfl
@[simp] theorem State.key_setV (r : Reg) (b : Byte) (k : Fin 16) : (s.setV r b).key k = s.key k := rfl
@[simp] theorem State.memRead_setI (a : Word) (m : Nat) : (s.setI a).memRead m = s.memRead m := rfl
@[simp] theorem State.key_setI (a : Word) (k : Fin 16) : (s.setI a).key k = s.key k := rfl
@[simp] theorem State.memRead_setPc (a : Word) (m : Nat) : (s.setPc a).memRead m = s.memRead m := rfl
@[simp] theorem State.key_setPc (a : Word) (k : Fin 16) : (s.setPc a).key k = s.key k := rfl
@[simp] theorem State.memRead_advance (m : Nat) : s.advance.memRead m = s.memRead m := rfl
@[simp] theorem State.key_advance (k : Fin 16) : s.advance.key k = s.key k := rfl
@[simp] theorem State.memRead_setDt (b : Byte) (m : Nat) : (s.setDt b).memRead m = s.memRead m := rfl
@[simp] theorem State.key_setDt (b : Byte) (k : Fin 16) : (s.setDt b).key k = s.key k := rfl
@[simp] theorem State.memRead_setSt (b : Byte) (m : Nat) : (s.setSt b).memRead m = s.memRead m := rfl
@[simp] theorem State.key_setSt (b : Byte) (k : Fin 16) : (s.setSt b).key k = s.key k := rfl
@[simp] theorem State.memRead_setKwait (b : Bool) (m : Nat) : (s.setKwait b).memRead m = s.memRead m := rfl
@[simp] theorem State.key_setKwait (b : Bool) (k : Fin 16) : (s.setKwait b).key k = s.key k := rfl
@[simp] theorem State.memRead_setFinished (b : Bool) (m : Nat) : (s.setFinished b).memRead m = s.memRead m := rfl
@[simp] theorem State.key_setFinished (b : Bool) (k : Fin 16) : (s.setFinished b).key k = s.key k := rfl
@[simp] theorem State.memRead_setStack (l : List Word) (m : Nat) : (s.setStack l).memRead m = s.memRead m := rfl
@[simp] theorem State.key_setStack (l : List Word) (k : Fin 16) : (s.setStack l).key k = s.key k := rfl
@[simp] theorem State.memRead_setFb (l : List Byte) (m : Nat) : (s.setFb l).memRead m = s.memRead m := rfl
@[simp] theorem State.key_setFb (l : List Byte) (k : Fin 16) : (s.setFb l).key k = s.key k := rfl
@[simp] theorem State.memRead_setFc (b : Bool) (m : Nat) : (s.setFc b).memRead m = s.memRead m := rfl
@[simp] theorem State.key_setFc (b : Bool) (k : Fin 16) : (s.setFc b).key k = s.key k := rfl
@[simp] theorem State.memRead_raise (c : FaultCode) (n : FaultInfo) (m : Nat) : (s.raise c n).memRead m = s.memRead m := rfl
@[simp] theorem State.key_raise (c : FaultCode) (n : FaultInfo) (k : Fin 16) : (s.raise c n).key k = s.key k := rfl
@[simp] theorem State.memRead_afterDraw (m : Nat) : s.afterDraw.memRead m = s.memRead m := rfl
@[simp] theorem State.key_afterDraw (k : Fin 16) : s.afterDraw.key k = s.key k := rfl
@[simp] theorem State.key_setByte (a : Nat) (x : Byte) (k : Fin 16) : (s.setByte a x).key k = s.key k := rfl
@[simp] theorem State.memRead_setKey (j : Fin 16) (b : Bool) (m : Nat) : (s.setKey j b).memRead m = s.memRead m := rfl

theorem State.key_setKey (j k : Fin 16) (b : Bool) : (s.setKey j b).key k = if k = j then b else s.key k := by
  simp [State.key, State.setKey, Vector.getElem_set, Fin.val_inj, eq_comm]

/-! ## Composition -/

/-- No update changes nothing. -/
theorem UnchangedBut.refl (l : List Part) : UnchangedBut l s s := by
  intro p _
  cases p <;> simp [Part.same]

/-- Reading the same is transitive. -/
theorem Part.same_trans {p : Part} {s t u : State} (h : p.same s t) (k : p.same t u) : p.same s u := by
  cases p <;> simp_all [Part.same]

/-- Two updates one after the other leave what both leave. -/
theorem UnchangedBut.comp {l m : List Part} {s t u : State} (h : UnchangedBut l s t) (k : UnchangedBut m t u) :
    UnchangedBut (l ++ m) s u := by
  intro p hp
  rw [List.mem_append, not_or] at hp
  exact Part.same_trans (h p hp.1) (k p hp.2)

/-- A frame may be weakened to a longer list of parts. -/
theorem UnchangedBut.mono {l m : List Part} {s t : State} (h : UnchangedBut l s t) (hlm : ∀ p ∈ l, p ∈ m) :
    UnchangedBut m s t := fun p hp => h p fun hl => hp (hlm p hl)

/-! ## The frame of each update -/

theorem State.setV_frame (r : Reg) (b : Byte) : UnchangedBut [.reg r] s (s.setV r b) := by
  intro p hp
  cases p <;> simp_all [Part.same, State.getV_setV]

theorem State.setI_frame (a : Word) : UnchangedBut [.index] s (s.setI a) := by
  intro p hp
  cases p <;> simp_all [Part.same]

theorem State.setPc_frame (a : Word) : UnchangedBut [.pc] s (s.setPc a) := by
  intro p hp
  cases p <;> simp_all [Part.same]

theorem State.advance_frame : UnchangedBut [.pc] s s.advance := by
  intro p hp
  cases p <;> simp_all [Part.same]

theorem State.setDt_frame (b : Byte) : UnchangedBut [.delay] s (s.setDt b) := by
  intro p hp
  cases p <;> simp_all [Part.same]

theorem State.setSt_frame (b : Byte) : UnchangedBut [.sound] s (s.setSt b) := by
  intro p hp
  cases p <;> simp_all [Part.same]

theorem State.setKwait_frame (b : Bool) : UnchangedBut [.keyWait] s (s.setKwait b) := by
  intro p hp
  cases p <;> simp_all [Part.same]

theorem State.setFinished_frame (b : Bool) : UnchangedBut [.finished] s (s.setFinished b) := by
  intro p hp
  cases p <;> simp_all [Part.same]

theorem State.setStack_frame (l : List Word) : UnchangedBut [.stack] s (s.setStack l) := by
  intro p hp
  cases p <;> simp_all [Part.same]

theorem State.setFb_frame (l : List Byte) : UnchangedBut [.display] s (s.setFb l) := by
  intro p hp
  cases p <;> simp_all [Part.same]

theorem State.setFc_frame (b : Bool) : UnchangedBut [.frameChanged] s (s.setFc b) := by
  intro p hp
  cases p <;> simp_all [Part.same]

theorem State.raise_frame (c : FaultCode) (n : FaultInfo) : UnchangedBut [.faultRecord] s (s.raise c n) := by
  intro p hp
  cases p <;> simp_all [Part.same]

theorem State.afterDraw_frame : UnchangedBut [.random] s s.afterDraw := by
  intro p hp
  cases p <;> simp_all [Part.same]

theorem State.tickBegin_frame : UnchangedBut [.delay, .sound, .frameChanged, .diag] s s.tickBegin := by
  intro p hp
  cases p <;> simp_all [Part.same]
  · rfl
  · rfl

theorem State.setKey_frame (k : Fin 16) (b : Bool) : UnchangedBut [.key k] s (s.setKey k b) := by
  intro p hp
  cases p <;> simp_all [Part.same, State.key_setKey, State.getV]

/-- A byte written inside canonical memory changes that byte and nothing else. -/
theorem State.setByte_frame (h : s.mem.Pairwise fun p q => p.1 < q.1) (a : Nat) (x : Byte) (ha : a < s.cfg.memSize) :
    UnchangedBut [.byte a] s (s.setByte a x) := by
  intro p hp
  cases p <;> simp_all [Part.same, State.memRead_setByte]

theorem State.skipIf_frame (c : Bool) : UnchangedBut [.pc] s (s.skipIf c) := by
  rw [State.skipIf_eq]
  exact State.setPc_frame s _

theorem State.writeThenFlag_frame (x : Reg) (r f : Byte) : UnchangedBut [.reg x, .reg vf] s (s.writeThenFlag x r f) :=
  (State.setV_frame s x r).comp (State.setV_frame _ vf f)

theorem State.writeShift_frame (x : Reg) (r f : Byte) : UnchangedBut [.reg x, .reg vf] s (s.writeShift x r f) := by
  unfold State.writeShift
  split
  · exact ((State.setV_frame s vf f).comp (State.setV_frame _ x r)).mono (by simp)
  · exact (State.setV_frame s x r).comp (State.setV_frame _ vf f)

/-- The updates of the ALU leave PC alone. -/
@[simp] theorem State.writeThenFlag_pc (x : Reg) (r f : Byte) : (s.writeThenFlag x r f).pc = s.pc := rfl

@[simp] theorem State.writeShift_pc (x : Reg) (r f : Byte) : (s.writeShift x r f).pc = s.pc := by
  unfold State.writeShift
  split <;> rfl

/-! ## Where PC goes (R58) -/

theorem pcPast_add (p : Word) (k : Nat) : PcPast p (p + BitVec.ofNat 16 k) k := by
  simp [PcPast, BitVec.toNat_add]

/-- The default advance leaves PC at p + 2. -/
theorem State.advance_pcPast : PcPast s.pc s.advance.pc 2 := pcPast_add s.pc 2

/-- A skip leaves PC at p + 4 or p + 2. -/
theorem State.skipIf_pcPast (c : Bool) : PcPast s.pc (s.skipIf c).pc (if c then 4 else 2) := by
  cases c
  · exact pcPast_add s.pc 2
  · exact pcPast_add s.pc 4

end Sys2Proof.Machine
end

