-- ==== Sys2Proof/Laws/PerInstr.lean ====
section
/-! SUPPORT. Statements made instruction by instruction. Family RowMatch: an encoded instruction has its opcode-table row's fixed
bits (30_encoding.md R52), that is, under the row's mask it equals the row's pattern. -/

namespace Sys2Proof.Laws.RowMatch

/-- The encoded word matches the instruction's row of the opcode table. -/
def Statement (i : Instr) : Prop := encode i &&& (opcodeRow i).mask = (opcodeRow i).pattern

theorem cls : Statement .cls := rfl
theorem ret : Statement .ret := rfl
theorem jp (nnn : Addr12) : Statement (.jp nnn) := (encodeNNN_and_F000 _ nnn).trans rfl
theorem call (nnn : Addr12) : Statement (.call nnn) := (encodeNNN_and_F000 _ nnn).trans rfl
theorem seImm (x : Reg) (nn : Byte) : Statement (.seImm x nn) := (encodeXNN_and_F000 _ x nn).trans rfl
theorem sneImm (x : Reg) (nn : Byte) : Statement (.sneImm x nn) := (encodeXNN_and_F000 _ x nn).trans rfl
theorem seReg (x y : Reg) : Statement (.seReg x y) := (encodeXYN_and_F00F _ x y _).trans rfl
theorem ldImm (x : Reg) (nn : Byte) : Statement (.ldImm x nn) := (encodeXNN_and_F000 _ x nn).trans rfl
theorem addImm (x : Reg) (nn : Byte) : Statement (.addImm x nn) := (encodeXNN_and_F000 _ x nn).trans rfl
theorem ldReg (x y : Reg) : Statement (.ldReg x y) := (encodeXYN_and_F00F _ x y _).trans rfl
theorem orReg (x y : Reg) : Statement (.orReg x y) := (encodeXYN_and_F00F _ x y _).trans rfl
theorem andReg (x y : Reg) : Statement (.andReg x y) := (encodeXYN_and_F00F _ x y _).trans rfl
theorem xorReg (x y : Reg) : Statement (.xorReg x y) := (encodeXYN_and_F00F _ x y _).trans rfl
theorem addReg (x y : Reg) : Statement (.addReg x y) := (encodeXYN_and_F00F _ x y _).trans rfl
theorem sub (x y : Reg) : Statement (.sub x y) := (encodeXYN_and_F00F _ x y _).trans rfl
theorem shr (x y : Reg) : Statement (.shr x y) := (encodeXYN_and_F00F _ x y _).trans rfl
theorem subn (x y : Reg) : Statement (.subn x y) := (encodeXYN_and_F00F _ x y _).trans rfl
theorem shl (x y : Reg) : Statement (.shl x y) := (encodeXYN_and_F00F _ x y _).trans rfl
theorem sneReg (x y : Reg) : Statement (.sneReg x y) := (encodeXYN_and_F00F _ x y _).trans rfl
theorem ldI (nnn : Addr12) : Statement (.ldI nnn) := (encodeNNN_and_F000 _ nnn).trans rfl
theorem jpV0 (nnn : Addr12) : Statement (.jpV0 nnn) := (encodeNNN_and_F000 _ nnn).trans rfl
theorem rnd (x : Reg) (nn : Byte) : Statement (.rnd x nn) := (encodeXNN_and_F000 _ x nn).trans rfl
theorem drw (x y : Reg) (n : Nibble) : Statement (.drw x y n) := (encodeXYN_and_F000 _ x y n).trans rfl
theorem skp (x : Reg) : Statement (.skp x) := (encodeXNN_and_F0FF _ x _).trans rfl
theorem sknp (x : Reg) : Statement (.sknp x) := (encodeXNN_and_F0FF _ x _).trans rfl
theorem ldVxDt (x : Reg) : Statement (.ldVxDt x) := (encodeXNN_and_F0FF _ x _).trans rfl
theorem ldVxK (x : Reg) : Statement (.ldVxK x) := (encodeXNN_and_F0FF _ x _).trans rfl
theorem ldDtVx (x : Reg) : Statement (.ldDtVx x) := (encodeXNN_and_F0FF _ x _).trans rfl
theorem ldStVx (x : Reg) : Statement (.ldStVx x) := (encodeXNN_and_F0FF _ x _).trans rfl
theorem addI (x : Reg) : Statement (.addI x) := (encodeXNN_and_F0FF _ x _).trans rfl
theorem ldF (x : Reg) : Statement (.ldF x) := (encodeXNN_and_F0FF _ x _).trans rfl
theorem ldB (x : Reg) : Statement (.ldB x) := (encodeXNN_and_F0FF _ x _).trans rfl
theorem storeRegs (x : Reg) : Statement (.storeRegs x) := (encodeXNN_and_F0FF _ x _).trans rfl
theorem loadRegs (x : Reg) : Statement (.loadRegs x) := (encodeXNN_and_F0FF _ x _).trans rfl

end Sys2Proof.Laws.RowMatch
end

