-- ==== Sys2Proof/Laws/Step.lean ====
section
/-! SUPPORT. Once and for all, what a tick can do (30_encoding.md R57): stand still on a faulted block, raise FETCH_RANGE, or run the
fetched word; and what running a word can do. -/

namespace Sys2Proof.Machine

variable (s : State)

/-- The start of a tick moves neither PC, memory nor the parameters, so the fetch is the one of the state before it. -/
@[simp] theorem State.fetch16_tickBegin (a : Nat) : s.tickBegin.fetch16 a = s.fetch16 a := rfl

@[simp] theorem State.memRead_tickBegin (a : Nat) : s.tickBegin.memRead a = s.memRead a := rfl

@[simp] theorem State.key_tickBegin (k : Fin 16) : s.tickBegin.key k = s.key k := rfl

/-- A faulted block does not step (R106). -/
theorem step_of_fault (h : s.fault ≠ none) : step s = .next s := by
  unfold step tick
  cases hf : s.fault with
  | none => exact absurd hf h
  | some _ => simp

/-- A clean block whose two bytes at PC leave memory raises FETCH_RANGE. -/
theorem step_of_fetch_none (h : s.fault = none) (hf : s.fetch16 s.pc.toNat = none) :
    step s = .next (s.tickBegin.raise .fetchRange (infoOf s.pc.toNat)) := by
  simp [step, tick, h, fetchAndRun, hf]

/-- A clean block runs the word it fetches, after the start of the tick. -/
theorem step_of_fetch {w : Word} (h : s.fault = none) (hf : s.fetch16 s.pc.toNat = some w) :
    step s = runWord w s.tickBegin := by
  simp [step, tick, h, fetchAndRun, hf]

/-- Everything a step can do. -/
theorem step_cases :
    (s.fault ≠ none ∧ step s = .next s) ∨
    (s.fault = none ∧ s.fetch16 s.pc.toNat = none ∧ step s = .next (s.tickBegin.raise .fetchRange (infoOf s.pc.toNat))) ∨
    (s.fault = none ∧ ∃ w, s.fetch16 s.pc.toNat = some w ∧ step s = runWord w s.tickBegin) := by
  by_cases h : s.fault = none
  · cases hf : s.fetch16 s.pc.toNat with
    | none => exact .inr (.inl ⟨h, rfl, step_of_fetch_none s h hf⟩)
    | some w => exact .inr (.inr ⟨h, w, rfl, step_of_fetch s h hf⟩)
  · exact .inl ⟨h, step_of_fault s h⟩

/-- The end of a tick answers a next state exactly where the instruction did, and writes FINISHED at most. -/
theorem tickEnd_eq_next {f : Bool} {r : Result} {t : State} :
    tickEnd f r = .next t ↔ ∃ u, r = .next u ∧ t = if u.fault.isSome then u else u.setFinished f := by
  cases r with
  | next u =>
    exact ⟨fun h => ⟨u, rfl, (Host.Outcome.next.inj h).symm⟩, fun ⟨v, hv, ht⟩ => by cases hv; rw [ht, tickEnd]⟩
  | fault r => cases r
  | refused r => exact ⟨fun h => (nomatch h), fun ⟨v, hv, _⟩ => (nomatch hv)⟩

/-- An unknown word: the event and the advance, or ILLEGAL_OPCODE (R54). -/
theorem execUnknown_cases (w : Word) :
    (s.cfg.unknownPolicy = .nop ∧ execUnknown w s = .next ({ s with diag := some w } : State).advance) ∨
    (s.cfg.unknownPolicy = .fault ∧ execUnknown w s = .next (s.raise .illegalOpcode (infoOf w.toNat))) := by
  unfold execUnknown
  cases h : s.cfg.unknownPolicy <;> simp

/-- Running a word is executing the decoded instruction, or the unknown word, and ending the tick. -/
theorem runWord_cases (w : Word) :
    (∃ i, decodeWord w = .instr i ∧ runWord w s = tickEnd (isSelfJump i s.pc) (exec i s)) ∨
    (∃ u, decodeWord w = .unknown u ∧ runWord w s = tickEnd false (execUnknown u s)) := by
  unfold runWord
  cases h : decodeWord w <;> simp

end Sys2Proof.Machine
end

