-- ==== Sys2Proof/Tests/Slice0.lean ====
section
/-! SUPPORT. The model's own tests. Expected results are the spec's: the words come from the opcode map (30_encoding.md R52), the results
from the vectors of 95_test_vectors.md, named in each docstring, and the witnesses show that the hypotheses of the statements in
Certificates/Slice0/Obligations.lean can be met together. -/

namespace Sys2Proof.Tests

open Sys2Proof.Machine

/-! ## Parameters: one ill-formed term for each check -/

theorem test_default_legal : defaultConfig.legal = true := by decide
theorem test_memSize_low : ({ defaultConfig with memSize := 513 } : Config).legal = false := by decide
theorem test_memSize_high : ({ defaultConfig with memSize := 65537 } : Config).legal = false := by decide
theorem test_width_multiple : ({ defaultConfig with width := 12 } : Config).legal = false := by decide
theorem test_width_zero : ({ defaultConfig with width := 0 } : Config).legal = false := by decide
theorem test_height_zero : ({ defaultConfig with height := 0 } : Config).legal = false := by decide
theorem test_display_too_big : ({ defaultConfig with width := 1024, height := 1024 } : Config).legal = false := by decide
theorem test_stackDepth_zero : ({ defaultConfig with stackDepth := 0 } : Config).legal = false := by decide

/-! ## Decoding: a word written out for every constructor (R52) -/

theorem test_decode_control :
    decodeWord 0x00EE = .instr .ret ∧ decodeWord 0x1234 = .instr (.jp 0x234) ∧ decodeWord 0x2345 = .instr (.call 0x345) ∧
    decodeWord 0x3A42 = .instr (.seImm 0xA 0x42) ∧ decodeWord 0x4B43 = .instr (.sneImm 0xB 0x43) ∧
    decodeWord 0x5120 = .instr (.seReg 1 2) ∧ decodeWord 0x9120 = .instr (.sneReg 1 2) ∧
    decodeWord 0xB300 = .instr (.jpV0 0x300) := by decide

theorem test_decode_alu :
    decodeWord 0x6A2B = .instr (.ldImm 0xA 0x2B) ∧ decodeWord 0x7A02 = .instr (.addImm 0xA 0x02) ∧
    decodeWord 0x8010 = .instr (.ldReg 0 1) ∧ decodeWord 0x8011 = .instr (.orReg 0 1) ∧
    decodeWord 0x8012 = .instr (.andReg 0 1) ∧ decodeWord 0x8013 = .instr (.xorReg 0 1) ∧
    decodeWord 0x8014 = .instr (.addReg 0 1) ∧ decodeWord 0x8235 = .instr (.sub 2 3) ∧
    decodeWord 0x8546 = .instr (.shr 5 4) ∧ decodeWord 0x8017 = .instr (.subn 0 1) ∧
    decodeWord 0x801E = .instr (.shl 0 1) ∧ decodeWord 0xC50F = .instr (.rnd 5 0x0F) := by decide

theorem test_decode_index_display :
    decodeWord 0xA2F0 = .instr (.ldI 0x2F0) ∧ decodeWord 0xF01E = .instr (.addI 0) ∧ decodeWord 0xFA29 = .instr (.ldF 0xA) ∧
    decodeWord 0xF333 = .instr (.ldB 3) ∧ decodeWord 0xF355 = .instr (.storeRegs 3) ∧
    decodeWord 0xF265 = .instr (.loadRegs 2) ∧ decodeWord 0x00E0 = .instr .cls ∧
    decodeWord 0xD125 = .instr (.drw 1 2 5) := by decide

theorem test_decode_timers_keys :
    decodeWord 0xE29E = .instr (.skp 2) ∧ decodeWord 0xE2A1 = .instr (.sknp 2) ∧ decodeWord 0xF507 = .instr (.ldVxDt 5) ∧
    decodeWord 0xF30A = .instr (.ldVxK 3) ∧ decodeWord 0xF415 = .instr (.ldDtVx 4) ∧
    decodeWord 0xF418 = .instr (.ldStVx 4) := by decide

/-- FD4, FD6, FD8, FD9, FD10, CT12: words that match no row. -/
theorem test_decode_unknown :
    decodeWord 0x0123 = .unknown 0x0123 ∧ decodeWord 0x00E1 = .unknown 0x00E1 ∧ decodeWord 0x8018 = .unknown 0x8018 ∧
    decodeWord 0xE000 = .unknown 0xE000 ∧ decodeWord 0xF0FF = .unknown 0xF0FF ∧ decodeWord 0x5121 = .unknown 0x5121 := by decide

/-- FD12: a word is read most significant byte first. -/
theorem test_decode_bytes : decodeBytes [0x12, 0x34, 0xFF] = .word (.instr (.jp 0x234)) [0xFF] ∧ decodeBytes [0x12] = .truncated := by
  decide

/-- The table's numbering of bits (opcode_table.json, row DRW_VX_VY_N). -/
theorem test_decodeTableWord : decodeTableWord 16 0xD125 = some (.drw 1 2 5) ∧ decodeTableWord 16 0x00E1 = none := by decide

/-! ## One step on a small state -/

/-- The state after one tick on the word, from `s`. -/
def after (s : State) (w : Nat) : Option State :=
  match step (s.withFetchWord 16 w) with
  | .next t => some t
  | .fault _ => none
  | .refused _ => none

/-- Reset with VA and VB set. -/
def withV (a : Reg) (x : Byte) (b : Reg) (y : Byte) : State := (State.reset.setV a x).setV b y

/-- Reset with the bytes placed at 0x300 and I pointing there. -/
def withData (xs : List Byte) : State := ((State.reset.storeBytes 0x300 xs).1).setI 0x300

/-- CT2: at 0x300 with stack [0204]. -/
theorem test_ret : (after ((State.reset.setPc 0x300).setStack [0x204]) 0x00EE).map (fun t => (t.pc, t.stack)) = some (0x206, []) := by decide
/-- CT1 and TF1: an empty stack faults, and the decay is kept. -/
theorem test_ret_fault : (after (State.reset.setDt 5) 0x00EE).map (fun t => (t.fault, t.faultPc, t.dt)) =
    some (some .stackUnderflow, 0x200, 4) := by decide
/-- CT6: a self-jump sets FINISHED. -/
theorem test_jp : (after State.reset 0x1200).map (fun t => (t.pc, t.finished)) = some (0x200, true) := by decide
/-- CT3: the 16th entry fits. -/
theorem test_call : (after (State.reset.setStack (List.replicate 15 0x250)) 0x2400).map (fun t => (t.pc, t.stack.head?, t.stack.length)) =
    some (0x400, some 0x200, 16) := by decide
/-- CT4: the 17th does not. -/
theorem test_call_fault : (after (State.reset.setStack (List.replicate 16 0x250)) 0x2400).map (fun t => (t.fault, t.faultInfo)) =
    some (some .stackOverflow, 0) := by decide
/-- CT7. -/
theorem test_seImm : (after (withV 3 0x42 0 0) 0x3342).map (·.pc) = some 0x204 := by decide
/-- CT9. -/
theorem test_sneImm : (after (withV 3 0x42 0 0) 0x4343).map (·.pc) = some 0x204 := by decide
/-- CT11: X = Y always skips. -/
theorem test_seReg : (after State.reset 0x5550).map (·.pc) = some 0x204 := by decide
/-- CT15. -/
theorem test_sneReg : (after (withV 1 7 2 8) 0x9120).map (·.pc) = some 0x204 := by decide
/-- CT16: the sum is not truncated to 12 bits. -/
theorem test_jpV0 : (after (withV 0 0xFF 1 0) 0xBFFF).map (·.pc) = some 0x10FE := by decide
/-- CT17: BNNN never sets FINISHED. -/
theorem test_jpV0_self : (after State.reset 0xB200).map (fun t => (t.pc, t.finished)) = some (0x200, false) := by decide
/-- FD1: the fetch past memory. -/
theorem test_fetch_fault : (after (State.reset.setPc 0xFFF) 0x6001).map (fun t => (t.fault, t.faultInfo)) =
    some (some .fetchRange, 0xFFF) := by decide
/-- FD2: the last word of memory executes. -/
theorem test_fetch_last : (after (State.reset.setPc 0xFFE) 0x6001).map (fun t => (t.getV 0, t.pc)) = some (1, 0x1000) := by decide
/-- CT12 and CT13: an unknown word under the two policies. -/
theorem test_unknown_nop : (after State.reset 0x5121).map (fun t => (t.pc, t.diag)) = some (0x202, some 0x5121) := by decide
theorem test_unknown_fault : (after (State.initial { defaultConfig with unknownPolicy := .fault }) 0x5121).map
    (fun t => (t.fault, t.faultInfo, t.pc)) = some (some .illegalOpcode, 0x5121, 0x200) := by decide
/-- AL1. -/
theorem test_ldImm : (after State.reset 0x6F2B).map (fun t => (t.getV 15, t.pc)) = some (0x2B, 0x202) := by decide
/-- AL2. -/
theorem test_addImm : (after (withV 10 2 15 7) 0x7AFF).map (fun t => (t.getV 10, t.getV 15)) = some (1, 7) := by decide
/-- AL3. -/
theorem test_ldReg : (after (withV 1 0x33 0 0) 0x8010).map (fun t => t.getV 0) = some 0x33 := by decide
/-- AL4. -/
theorem test_or : (after ((withV 0 0x0C 1 0x0A).setV 15 5) 0x8011).map (fun t => (t.getV 0, t.getV 15)) = some (0x0E, 0) := by decide
/-- AL5. -/
theorem test_and : (after ((withV 0 0x0C 1 0x0A).setV 15 5) 0x8012).map (fun t => (t.getV 0, t.getV 15)) = some (8, 0) := by decide
/-- AL6. -/
theorem test_xor : (after (withV 0 0x0C 1 0x0A) 0x8013).map (fun t => (t.getV 0, t.getV 15)) = some (6, 0) := by decide
/-- AL9 (S6) and AL12. -/
theorem test_addReg : (after (withV 0 0xFF 1 1) 0x8014).map (fun t => (t.getV 0, t.getV 15)) = some (0, 1) := by decide
theorem test_addReg_y15 : (after (withV 0 0x10 15 1) 0x80F4).map (fun t => (t.getV 0, t.getV 15)) = some (0x11, 0) := by decide
/-- AL13 (S7) and AL15. -/
theorem test_sub : (after (withV 0 1 1 2) 0x8015).map (fun t => (t.getV 0, t.getV 15)) = some (0xFF, 0) := by decide
theorem test_sub_x15 : (after (withV 15 5 1 3) 0x8F15).map (fun t => t.getV 15) = some 1 := by decide
/-- AL17. -/
theorem test_subn : (after (withV 0 2 1 1) 0x8017).map (fun t => (t.getV 0, t.getV 15)) = some (0xFF, 0) := by decide
/-- AL18 and AL20. -/
theorem test_shr : (after (withV 0 0xAA 1 5) 0x8016).map (fun t => (t.getV 0, t.getV 15)) = some (2, 1) := by decide
theorem test_shr_x15 : (after (withV 1 5 0 0) 0x8F16).map (fun t => t.getV 15) = some 2 := by decide
/-- AL23 and AL26. -/
theorem test_shl : (after (withV 1 0x81 0 0) 0x801E).map (fun t => (t.getV 0, t.getV 15)) = some (2, 1) := by decide
theorem test_shl_x15 : (after ((State.initial { defaultConfig with shiftVfOrder := .destThenFlag }).setV 1 0x81) 0x8F1E).map
    (fun t => t.getV 15) = some 1 := by decide
/-- AL27: the host supplies 3C. -/
theorem test_rnd : (after { State.reset with rndIn := [0x3C] } 0xC50F).map (fun t => (t.getV 5, t.rndIn)) = some (0x33, []) := by decide
/-- IM1. -/
theorem test_ldI : (after State.reset 0xA2F0).map (·.i) = some 0x2F0 := by decide
/-- IM2. -/
theorem test_addI : (after ((withV 0 2 15 9).setI 0xFFFF) 0xF01E).map (fun t => (t.i, t.getV 15)) = some (1, 9) := by decide
/-- IM4 and IM5. -/
theorem test_ldF : (after (withV 0 15 1 0) 0xF029).map (·.i) = some 0x4B := by decide
theorem test_ldF_fault : (after (withV 0 16 1 0) 0xF029).map (fun t => (t.fault, t.faultInfo)) = some (some .fontRange, 0x10) := by decide
/-- IM6 (S11) and IM8. -/
theorem test_ldB : (after ((withV 3 0xFE 0 0).setI 0x300) 0xF333).map (fun t => [t.byteAt 0x300, t.byteAt 0x301, t.byteAt 0x302]) =
    some [2, 5, 4] := by decide
theorem test_ldB_fault : (after ((withV 3 0xFF 0 0).setI 0xFFE) 0xF333).map (fun t => (t.fault, t.faultInfo)) =
    some (some .memWriteRange, 0x1000) := by decide
/-- IM9 (S10) and IM15. -/
theorem test_storeRegs : (after (((withV 0 1 1 2).setV 3 4).setI 0x300) 0xF355).map
    (fun t => ([t.byteAt 0x300, t.byteAt 0x301, t.byteAt 0x303, t.byteAt 0x304], t.i)) = some ([1, 2, 4, 0], 0x304) := by decide
theorem test_storeRegs_fault : (after (State.reset.setI 0xFFFF) 0xF055).map (fun t => (t.fault, t.faultInfo)) =
    some (some .memWriteRange, 0xFFFF) := by decide
/-- IM12 and IM13. -/
theorem test_loadRegs : (after (withData [0x11, 0x22, 0x33]) 0xF265).map (fun t => (t.getV 0, t.getV 2, t.i)) =
    some (0x11, 0x33, 0x303) := by decide
theorem test_loadRegs_font : (after State.reset 0xFF65).map (fun t => (t.getV 0, t.getV 5, t.getV 15, t.i)) =
    some (0xF0, 0x20, 0xF0, 0x10) := by decide
/-- DS1. -/
theorem test_cls : (after (State.reset.setFb (List.replicate 256 0xFF)) 0x00E0).map (fun t => (t.fb.getD 0 1, t.fb.getD 255 1, t.fc)) =
    some (0, 0, false) := by decide
/-- DS2 and DS11. -/
theorem test_drw : (after (withV 15 7 0 0) 0xD015).map (fun t => (t.fb.getD 0 0, t.fb.getD 8 0, t.getV 15, t.fc)) =
    some (0xF0, 0x90, 7, true) := by decide
theorem test_drw_seam : (after ((withData [0xFF]).setV 0 0x3C) 0xD011).map (fun t => (t.fb.getD 7 0, t.fb.getD 0 0)) =
    some (0x0F, 0xF0) := by decide
/-- S2, S4, BL1 to BL5: the blitter on small displays. -/
def small (w : Nat) (wrap : Bool) : Config := { defaultConfig with width := w, height := 2, drawVWrap := wrap }
theorem test_blit_split : blit (small 16 false) 5 0 [0x12, 0xAE] [0, 0, 0, 0] = ⟨[0x00, 0x90, 0x05, 0x70], false⟩ := by decide
theorem test_blit_twice : blit (small 16 false) 0 0 [0xFF, 0xFF] [0xFF, 0, 0xFF, 0] = ⟨[0, 0, 0, 0], true⟩ := by decide
theorem test_blit_edges : blit (small 16 false) 13 0 [0xFF, 0x81] [0, 0, 0, 0] = ⟨[0xF8, 0x07, 0x08, 0x04], false⟩ ∧
    blit (small 8 false) 5 0 [0xFF] [0, 0] = ⟨[0x07, 0], false⟩ := by decide
theorem test_blit_bottom : blit (small 16 false) 0 1 [0xFF, 0xFF] [0, 0, 0, 0] = ⟨[0, 0, 0xFF, 0], false⟩ ∧
    blit (small 16 true) 0 1 [0xFF, 0x0F] [0, 0, 0, 0] = ⟨[0x0F, 0, 0xFF, 0], false⟩ := by decide
theorem test_blit_collision : blit (small 16 false) 3 1 [0x01] [0, 0, 0x1F, 0xE0] = ⟨[0, 0, 0x1F, 0xC0], true⟩ := by decide
/-- TK1 and TK5. -/
theorem test_skp : (after ((withV 2 5 0 0).setKey 5 true) 0xE29E).map (·.pc) = some 0x204 := by decide
theorem test_skp_fault : (after (withV 2 16 0 0) 0xE29E).map (fun t => (t.fault, t.faultInfo)) = some (some .keyRange, 0x10) := by decide
/-- TK3 and TK4. -/
theorem test_sknp : (after (withV 2 5 0 0) 0xE2A1).map (·.pc) = some 0x204 := by decide
theorem test_sknp_pressed : (after ((withV 2 5 0 0).setKey 5 true) 0xE2A1).map (·.pc) = some 0x202 := by decide
/-- TK7. -/
theorem test_ldVxDt : (after (State.reset.setDt 3) 0xF507).map (fun t => (t.getV 5, t.dt)) = some (2, 2) := by decide
/-- TK9. -/
theorem test_ldDtVx : (after ((withV 4 2 0 0).setDt 9) 0xF415).map (·.dt) = some 2 := by decide
/-- TK10. -/
theorem test_ldStVx : (after ((withV 4 3 0 0).setSt 1) 0xF418).map (fun t => (t.st, isBeeping t)) = some (3, true) := by decide
/-- TK12 and TK14. -/
theorem test_ldVxK_latch : (after ((State.reset.setKey 9 true).setKey 4 true) 0xF30A).map (fun t => (t.getV 3, t.kwait, t.pc)) =
    some (4, true, 0x200) := by decide
theorem test_ldVxK_release : (after ((withV 3 4 0 0).setKwait true) 0xF30A).map (fun t => (t.getV 3, t.kwait, t.pc)) =
    some (4, false, 0x202) := by decide

/-! ## Witnesses: the hypotheses of each statement, met together -/

/-- Reset with one word at PC. -/
def holding (w : Nat) : State := State.reset.withFetchWord 16 w

/-- Reset with a full stack, and with the last free place. -/
def fullStack : State := State.reset.setStack (List.replicate 16 0x250)
def nearlyFull : State := State.reset.setStack (List.replicate 15 0x250)

/-- A faulted state. -/
def faulted : State := State.reset.raise .stackUnderflow noInfo

theorem fetches_of {s : State} {i : Instr} (w : Word) (h : s.fetch16 s.pc.toNat = some w) (d : decodeWord w = .instr i) :
    s.fetches i := ⟨w, h, d⟩

theorem witness_EveryWordHasOneRowOrIsUnknown : decodeWord 0x6A2B = .instr (.ldImm 0xA 0x2B) ∧ decodeWord 0x5121 = .unknown 0x5121 := by
  decide
theorem witness_FetchIsBigEndianOrFaults_read :
    (holding 0x6A05).memRead 0x200 = some 0x6A ∧ (holding 0x6A05).memRead 0x201 = some 0x05 ∧
    State.reset.memRead 4094 = some 0 ∧ State.reset.memRead 4095 = some 0 := by decide
theorem witness_FetchIsBigEndianOrFaults_edge :
    (State.reset.setPc 4095).clean ∧ (State.reset.setPc 4095).cfg.memSize ≤ (State.reset.setPc 4095).pc.toNat + 1 := by decide
theorem witness_StepRunsTheDecodedInstruction_clean :
    (holding 0x1200).clean ∧ (holding 0x1200).fetches (.jp 0x200) ∧ ∃ t, exec (.jp 0x200) (holding 0x1200).tickBegin = .next t ∧ t.clean :=
  ⟨by decide, fetches_of 0x1200 (by decide) (by decide), _, rfl, by decide⟩
theorem witness_StepRunsTheDecodedInstruction_fault :
    (holding 0x00EE).clean ∧ (holding 0x00EE).fetches .ret ∧ ∃ t, exec .ret (holding 0x00EE).tickBegin = .next t ∧ t.fault ≠ none :=
  ⟨by decide, fetches_of 0x00EE (by decide) (by decide), _, rfl, by decide⟩
theorem witness_UnknownWordFollowsThePolicy_nop :
    (holding 0x5121).clean ∧ (holding 0x5121).fetch16 0x200 = some 0x5121 ∧ decodeWord 0x5121 = .unknown 0x5121 ∧
    (holding 0x5121).cfg.unknownPolicy = .nop := by decide
theorem witness_UnknownWordFollowsThePolicy_fault :
    (State.initial { defaultConfig with unknownPolicy := .fault }).clean ∧
    (State.initial { defaultConfig with unknownPolicy := .fault }).fetch16 0x200 = some 0 ∧ decodeWord 0 = .unknown 0 ∧
    (State.initial { defaultConfig with unknownPolicy := .fault }).cfg.unknownPolicy = .fault := by decide
theorem witness_WithFetchWordIsFetchedNext :
    Memory.Wf (holding 0x6001).cfg (holding 0x6001).mem ∧ ((holding 0x6001).setPc 4094).pc.toNat + 1 < 4096 ∧ 0xFFFF < 65536 := by decide
theorem witness_flagRegister : (0 : Reg) ≠ vf ∧ (14 : Reg) ≠ vf ∧ (15 : Reg) = vf := by decide
theorem witness_ShiftsMoveVyIntoVx :
    State.reset.cfg.shiftVfOrder = .flagThenDest ∧
    (State.initial { defaultConfig with shiftVfOrder := .destThenFlag }).cfg.shiftVfOrder = .destThenFlag := by decide
theorem witness_RandomIsXoredIntoVx :
    ({ State.reset with rndIn := [0x3C] } : State).rndIn = 0x3C :: [] ∧ State.reset.rndIn = [] := by decide
theorem witness_CallPushesAndJumps :
    nearlyFull.stack.length < nearlyFull.cfg.stackDepth ∧ fullStack.stack.length ≥ fullStack.cfg.stackDepth := by decide
theorem witness_ReturnPopsAndResumes : fullStack.stack = 0x250 :: List.replicate 15 0x250 ∧ State.reset.stack = [] := by decide
theorem witness_ReturnUndoesCall :
    ∃ t u : State, nearlyFull.clean ∧ exec (.call 0xFFF) nearlyFull = .next t ∧ t.clean ∧ u.stack = t.stack :=
  ⟨_, _, by decide, rfl, by decide, rfl⟩
theorem witness_SelfCallFillsTheStackThenFaults :
    (holding 0x2200).clean ∧ (holding 0x2200).fetches (.call 0x200) ∧ (0x200 : Addr12).toNat = (holding 0x2200).pc.toNat ∧
    (holding 0x2200).stack.length + 16 ≤ (holding 0x2200).cfg.stackDepth ∧
    (holding 0x2200).stack.length + 17 = (holding 0x2200).cfg.stackDepth + 1 ∧ 0 < 17 :=
  ⟨by decide, fetches_of 0x2200 (by decide) (by decide), by decide, by decide, by decide, by decide⟩
theorem witness_FontLookupPointsAtGlyph : ((State.reset.setV 10 15).getV 10).toNat ≤ 15 := by decide
theorem witness_BcdStoresThreeDigits :
    Memory.Wf (withData [9]).cfg ((withData [9]).setI 4093).mem ∧ ((withData [9]).setI 4093).base + 3 ≤ (withData [9]).cfg.memSize := by decide
theorem witness_RegisterDumpStoresUpToX :
    Memory.Wf (withData [9]).cfg ((withData [9]).setI 4080).mem ∧
    ((withData [9]).setI 4080).base + (15 : Reg).toNat + 1 ≤ (withData [9]).cfg.memSize := by decide
theorem witness_RegisterLoadReadsUpToX :
    (State.reset.setI 4095).base + (0 : Reg).toNat + 1 ≤ State.reset.cfg.memSize ∧
    (0 : Reg).toNat ≤ (0 : Reg).toNat ∧ (0 : Reg).toNat < (15 : Reg).toNat := by decide
theorem witness_LoadUndoesDump :
    ∃ t u : State, Memory.Wf State.reset.cfg State.reset.mem ∧ (State.reset.setI 4092).base + (3 : Reg).toNat + 1 ≤ 4096 ∧
      exec (.storeRegs 3) (State.reset.setI 4092) = .next t ∧ u.cfg = t.cfg ∧ u.mem = t.mem ∧ u.i = (State.reset.setI 4092).i :=
  ⟨((State.reset.setI 4092).storeBytes 4092 [0, 0, 0, 0]).1.setI 4096 |>.advance,
   ((State.reset.setI 4092).storeBytes 4092 [0, 0, 0, 0]).1, by decide, by decide, rfl, rfl, rfl, rfl⟩
theorem witness_StoreIsSeenByTheNextFetch :
    ∃ t, Memory.Wf State.reset.cfg State.reset.mem ∧ (State.reset.setI 4094).base + (1 : Reg).toNat + 1 ≤ 4096 ∧
      1 ≤ (1 : Reg).toNat ∧ exec (.storeRegs 1) (State.reset.setI 4094) = .next t :=
  ⟨_, by decide, by decide, by decide, rfl⟩
theorem witness_XorByteFlipsLanesAndDetectsCollision : 1 < (⟨[0x80, 0x01], false⟩ : Canvas).fb.length := by decide
theorem witness_DrawBlitsTheSpriteAtI :
    (State.reset.setI 0xFFB).base + (5 : Nibble).toNat ≤ State.reset.cfg.memSize ∧
    (State.reset.setI 0x1000).base + (0 : Nibble).toNat ≤ State.reset.cfg.memSize := by decide
theorem witness_BlitXorsTheSpritesPixels :
    defaultConfig.legal = true ∧ State.reset.fb.length = defaultConfig.fbBytes ∧ defaultConfig.drawVWrap = false ∧
    (small 8 true).legal = true ∧ [0, 0].length = (small 8 true).fbBytes ∧ ([0xFF, 0x0F] : List Byte).length ≤ (small 8 true).height ∧
    7 < (small 8 true).width ∧ 1 < (small 8 true).height :=
  ⟨by decide, List.length_replicate, by decide, by decide, by decide, by decide, by decide, by decide⟩
/-- A pixel that is set on both sides exists, so the collision statement has a case each way. -/
theorem witness_BlitCollidesExactlyOnSetPixels :
    pixelOf (small 8 false) [0x80, 0] 0 0 = true ∧ spritePixel (small 8 false) 0 0 [0x80] 0 0 = true ∧
    spritePixel (small 8 false) 0 0 [0x80] 1 0 = false := by decide
theorem witness_PixelQueryReadsItsBit :
    State.reset.cfg.legal = true ∧ State.reset.fb.length = State.reset.cfg.fbBytes ∧ 63 < State.reset.cfg.width ∧
    31 < State.reset.cfg.height ∧ State.reset.cfg.width ≤ 64 ∧ State.reset.cfg.height ≤ 32 :=
  ⟨by decide, List.length_replicate, by decide, by decide, by decide, by decide⟩
theorem witness_TimersDecayOncePerTick_other : ∃ t, (holding 0x6001).clean ∧ step (holding 0x6001) = .next t ∧
    (∀ x, ¬ (holding 0x6001).fetches (.ldDtVx x)) ∧ ∀ x, ¬ (holding 0x6001).fetches (.ldStVx x) := by
  have fetched : (holding 0x6001).fetch16 (holding 0x6001).pc.toNat = some 0x6001 := by decide
  have decoded : decodeWord 0x6001 = .instr (.ldImm 0 1) := by decide
  refine ⟨_, by decide, rfl, ?_, ?_⟩ <;> rintro x ⟨w, h, d⟩ <;> cases fetched.symm.trans h <;> cases decoded.symm.trans d
theorem witness_TimersDecayOncePerTick_writes :
    (holding 0xF415).fetches (.ldDtVx 4) ∧ (holding 0xF418).fetches (.ldStVx 4) ∧
    (∃ t, step (holding 0xF415) = .next t) ∧ ∃ t, step (holding 0xF418) = .next t :=
  ⟨fetches_of 0xF415 (by decide) (by decide), fetches_of 0xF418 (by decide) (by decide), ⟨_, rfl⟩, _, rfl⟩
theorem witness_TimerMovesCopyTheRegister : ((holding 0xF507).clean ∧ (holding 0xF507).fetches (.ldVxDt 5)) ∧
    ((holding 0xF515).clean ∧ (holding 0xF515).fetches (.ldDtVx 5)) ∧ (holding 0xF518).clean ∧ (holding 0xF518).fetches (.ldStVx 5) :=
  ⟨⟨by decide, fetches_of 0xF507 (by decide) (by decide)⟩, ⟨by decide, fetches_of 0xF515 (by decide) (by decide)⟩, by decide,
    fetches_of 0xF518 (by decide) (by decide)⟩
theorem witness_KeySkipsFollowTheLine :
    ((State.reset.setV 2 15).getV 2).toNat = (15 : Fin 16).val ∧ ((State.reset.setV 2 0).getV 2).toNat = (0 : Fin 16).val := by decide
/-- The four cases of LD VX,K: no key, keys 4 and 9, key 2 held in the release phase, and all released. -/
theorem witness_KeyReadLatchesThenWaitsForRelease :
    (State.reset.kwait = false ∧ ∀ k, State.reset.key k = false) ∧
    (((State.reset.setKey 9 true).setKey 4 true).key 4 = true ∧
      ∀ j, j < (4 : Fin 16) → ((State.reset.setKey 9 true).setKey 4 true).key j = false) ∧
    (((State.reset.setKwait true).setKey 2 true).kwait = true ∧ ((State.reset.setKwait true).setKey 2 true).key 2 = true) ∧
    ((State.reset.setKwait true).kwait = true ∧ ∀ k, (State.reset.setKwait true).key k = false) := by decide
theorem witness_KeyWaitStallsForever :
    (holding 0xF30A).clean ∧ (holding 0xF30A).fetches (.ldVxK 3) ∧ (holding 0xF30A).kwait = false ∧
    (∀ k, (holding 0xF30A).key k = false) ∧ (((holding 0xF30A).setKwait true).setKey 15 true).fetches (.ldVxK 3) ∧
    (((holding 0xF30A).setKwait true).setKey 15 true).kwait = true ∧ (((holding 0xF30A).setKwait true).setKey 15 true).key 15 = true :=
  ⟨by decide, fetches_of 0xF30A (by decide) (by decide), by decide, by decide, fetches_of 0xF30A (by decide) (by decide), by decide,
   by decide⟩
/-- A boundary for each row of R105's table: the last operand that runs and the first that faults. -/
theorem witness_InstructionFaultsAreExactlyTheTable :
    State.reset.cfg.legal = true ∧ State.reset.clean ∧
    faultOf .ret fullStack = none ∧ faultOf .ret State.reset = some (.stackUnderflow, 0) ∧
    faultOf (.call 0) nearlyFull = none ∧ faultOf (.call 0) fullStack = some (.stackOverflow, 0) ∧
    faultOf (.skp 2) (State.reset.setV 2 15) = none ∧ faultOf (.skp 2) (State.reset.setV 2 16) = some (.keyRange, 16) ∧
    faultOf (.sknp 2) (State.reset.setV 2 15) = none ∧ faultOf (.sknp 2) (State.reset.setV 2 16) = some (.keyRange, 16) ∧
    faultOf (.ldF 2) (State.reset.setV 2 15) = none ∧ faultOf (.ldF 2) (State.reset.setV 2 16) = some (.fontRange, 16) ∧
    faultOf (.ldB 2) (State.reset.setI 4093) = none ∧ faultOf (.ldB 2) (State.reset.setI 4094) = some (.memWriteRange, 4096) ∧
    faultOf (.storeRegs 3) (State.reset.setI 4092) = none ∧
    faultOf (.storeRegs 3) (State.reset.setI 4093) = some (.memWriteRange, 4096) ∧
    faultOf (.loadRegs 0) (State.reset.setI 4095) = none ∧
    faultOf (.loadRegs 0) (State.reset.setI 4096) = some (.memReadRange, 4096) ∧
    faultOf (.drw 0 0 0) (State.reset.setI 4096) = none ∧ faultOf (.drw 0 0 0) (State.reset.setI 4097) = some (.memReadRange, 4097) := by
  decide
theorem witness_FaultedBlockNeverChanges : faulted.fault ≠ none := by decide
theorem holding_wf : (holding 0x6001).Wf :=
  ⟨by decide, by decide, List.length_replicate, by decide, by decide, by decide, by decide⟩
theorem witness_StepKeepsTheStateWellFormed : ∃ t, (holding 0x6001).Wf ∧ step (holding 0x6001) = .next t := ⟨_, holding_wf, rfl⟩
theorem witness_StepKeepsKwaitAtKeyRead :
    ∃ t, ((holding 0xF30A).setKwait true).kwait = true ∧ ((holding 0xF30A).setKwait true).KeyWaitWf ∧
      step ((holding 0xF30A).setKwait true) = .next t :=
  ⟨_, by decide, fun _ => ⟨3, fetches_of 0xF30A (by decide) (by decide)⟩, rfl⟩
theorem exists_next_of {r : Result} (h : (match r with | .next _ => true | .fault _ => false | .refused _ => false) = true) :
    ∃ t, r = .next t := by
  cases r with
  | next t => exact ⟨t, rfl⟩
  | fault f => cases h
  | refused f => cases h
/-- The start of P4: a key wait, with the host's calls and a random byte between its ticks. -/
theorem witness_EveryHostRunKeepsTheInvariants :
    ∃ s t, construct (small 8 true) [0xF3, 0x0A] = .next s ∧
      hostRun [.press 9, .tick, .supply 0x3C, .release 9, .tick] s = .next t :=
  ⟨(State.initial (small 8 true)).placeProgram [0xF3, 0x0A], by
    obtain ⟨t, h⟩ := exists_next_of (r := hostRun [.press 9, .tick, .supply 0x3C, .release 9, .tick]
      ((State.initial (small 8 true)).placeProgram [0xF3, 0x0A])) (by decide)
    have legal : (small 8 true).legal = true := by decide
    have fits : ¬ (small 8 true).memSize - 512 < 2 := by decide
    exact ⟨t, by simp [construct, legal, fits], h⟩⟩
theorem witness_HasDrawnExactlyAfterDraw :
    (∃ t, (holding 0xD015).clean ∧ step (holding 0xD015) = .next t ∧ t.clean ∧ (holding 0xD015).fetches (.drw 0 1 5)) ∧
    ∃ t, (holding 0x00E0).clean ∧ step (holding 0x00E0) = .next t ∧ t.clean :=
  ⟨⟨_, by decide, rfl, by decide, fetches_of 0xD015 (by decide) (by decide)⟩, _, by decide, rfl, by decide⟩
theorem witness_FinishedExactlyAfterSelfJump :
    (∃ t, (holding 0x1200).clean ∧ step (holding 0x1200) = .next t ∧ t.clean ∧ (holding 0x1200).fetches (.jp 0x200)) ∧
    ∃ t, (holding 0xB200).clean ∧ step (holding 0xB200) = .next t ∧ t.clean :=
  ⟨⟨_, by decide, rfl, by decide, fetches_of 0x1200 (by decide) (by decide)⟩, _, by decide, rfl, by decide⟩
theorem witness_EachPartHasOnlyItsWriters :
    (∃ t, exec (.addReg 0 1) State.reset = .next t) ∧ (∃ t, exec (.ldB 0) (State.reset.setI 0x300) = .next t) ∧
    ∃ t, exec (.drw 0 0 1) State.reset = .next t := ⟨⟨_, rfl⟩, ⟨_, rfl⟩, _, rfl⟩
theorem witness_RegistersChangeOnlyAsDestinationOrFlag :
    (∃ t, exec (.addReg 0 1) State.reset = .next t) ∧ (14 : Reg) ∉ destinations (.addReg 0 1) ∧ (14 : Reg) ≠ vf ∧
    (∃ t, exec (.addI 0) State.reset = .next t) ∧ vf ∉ destinations (.addI 0) ∧ writesFlag (.addI 0) = false :=
  ⟨⟨_, rfl⟩, by decide, by decide, ⟨_, rfl⟩, by decide, by decide⟩
theorem witness_SelfJumpHaltsTheProgram :
    (holding 0x1200).clean ∧ (holding 0x1200).fetches (.jp 0x200) ∧ (0x200 : Addr12).toNat = (holding 0x1200).pc.toNat :=
  ⟨by decide, fetches_of 0x1200 (by decide) (by decide), by decide⟩
theorem witness_ConstructPlacesTheProgram :
    defaultConfig.legal = true ∧ ([0x12, 0x00, 0x7F] : List Byte).length ≤ defaultConfig.memSize - 512 ∧
    ({ defaultConfig with memSize := 514 } : Config).legal = true ∧
    ([0x12, 0x00, 0x7F] : List Byte).length > ({ defaultConfig with memSize := 514 } : Config).memSize - 512 := by decide
/-- Three rows on a display of two: row 2 wraps onto row 0, flips it back and collides (R89, R91). -/
theorem test_blit_overlap : blit (small 8 true) 0 0 [0xFF, 0, 0xFF] [0, 0] = ⟨[0, 0], true⟩ := by decide
theorem witness_BlitFlipsPixelsRowByRow :
    (small 8 true).legal = true ∧ [0, 0].length = (small 8 true).fbBytes ∧ 7 < (small 8 true).width ∧ 1 < (small 8 true).height ∧
    spriteFlips (small 8 true) 0 0 [0xFF, 0, 0xFF] 7 0 2 = true ∧ spriteFlips (small 8 true) 0 0 [0xFF, 0, 0xFF] 7 0 3 = false := by
  decide
/-- A collision with a row of the sprite itself, and a sprite without one. -/
theorem witness_BlitCollidesRowByRow :
    (pixelOf (small 8 true) [0, 0] 7 0 != spriteFlips (small 8 true) 0 0 [0xFF, 0, 0xFF] 7 0 2) = true ∧
    rowPixel (small 8 true) 0 0 2 0xFF 7 0 = true ∧ rowPixel (small 8 false) 0 0 2 0xFF 7 0 = false := by decide
theorem witness_KeyCallsWriteOneLine : 15 < 16 ∧ 16 ≤ 16 := by decide

end Sys2Proof.Tests
end

section
/-! The statements about the fetch and the font lookup (20_memory.md R38, R43; 42_index_memory.md R83), with the facts they rest on. -/

namespace Sys2Proof.Machine

variable (s : State)

/-! ## The word at an address (R38) -/

/-- The first byte is the more significant one. -/
theorem composeWord_toNat (hi lo : Byte) : (composeWord hi lo).toNat = hi.toNat * 256 + lo.toNat := by
  have hlo : lo.toNat < 2 ^ 8 := lo.isLt
  rw [composeWord, BitVec.toNat_append, ← Nat.shiftLeft_add_eq_or_of_lt hlo, Nat.shiftLeft_eq]

/-- A read succeeds exactly inside memory, and then gives the byte there (R37). -/
theorem State.memRead_eq_some {a : Nat} {b : Byte} : s.memRead a = some b ↔ a < s.cfg.memSize ∧ s.byteAt a = b := by
  simp [State.memRead]

/-- The fetched word is the composition of the two bytes read. -/
theorem State.fetch16_of_memRead {a : Nat} {hi lo : Byte} (h0 : s.memRead a = some hi) (h1 : s.memRead (a + 1) = some lo) :
    s.fetch16 a = some (composeWord hi lo) := by
  obtain ⟨_, rfl⟩ := s.memRead_eq_some.mp h0
  obtain ⟨hlt, rfl⟩ := s.memRead_eq_some.mp h1
  exact if_pos hlt

/-- There is no word exactly where its second byte is past memory. -/
theorem State.fetch16_eq_none {a : Nat} : s.fetch16 a = none ↔ s.cfg.memSize ≤ a + 1 := by
  simp [State.fetch16]

/-- Settles O4: the word is composed of the two bytes read; past memory the fetch fails, and the tick with it. -/
theorem fetchIsBigEndianOrFaults : Obligations.FetchIsBigEndianOrFaults := by
  refine ⟨fun s a hi lo h0 h1 => ?bigEndian, fun s a h => ?noWord, fun s hclean hpc => ?tickFaults⟩
  case bigEndian => exact ⟨_, s.fetch16_of_memRead h0 h1, composeWord_toNat hi lo⟩
  case noWord => exact s.fetch16_eq_none.mpr h
  case tickFaults => exact ⟨_, step_of_fetch_none s hclean (s.fetch16_eq_none.mpr hpc), State.raise_fault _ _ _⟩

/-! ## The glyph of a digit (R43, R83) -/

/-- The glyph address of a byte does not wrap at 16 bits. -/
theorem glyphAddress_toNat (d : Byte) : (glyphAddress d).toNat = 5 * d.toNat := by
  have hd : d.toNat < 256 := d.isLt
  rw [glyphAddress, BitVec.toNat_ofNat, Nat.mod_eq_of_lt (by omega)]

/-- LD F,VX raises no fault for a digit. -/
theorem exec_ldF_of_le {x : Reg} (h : (s.getV x).toNat ≤ 15) :
    exec (.ldF x) s = .next (s.setI (glyphAddress (s.getV x))).advance :=
  if_neg (Nat.not_lt.mpr h)

/-- Settles O23: for a digit the lookup is a write of I and the default advance, and has their frames. -/
theorem fontLookupPointsAtGlyph : Obligations.FontLookupPointsAtGlyph := by
  intro s x hdigit
  refine ⟨_, exec_ldF_of_le s hdigit, ?index, ?pc, ?frame⟩
  case index => exact glyphAddress_toNat (s.getV x)
  case pc => exact State.advance_pcPast (s.setI _)
  case frame => exact (State.setI_frame s _).comp (State.advance_frame _)

end Sys2Proof.Machine
end

section
/-! The statement about the decoder and the opcode table (30_encoding.md R52, R53), with the facts it rests on: a decoded word keeps all
its bits, and a row that matches a word is the row of the instruction decoded from it, so no two rows match one word. -/

namespace Sys2Proof

/-! ## A word from its fields (R51) -/

theorem encodeNNN_fields (w : Word) : encodeNNN (fieldOp w) (fieldNNN w) = w := by
  rw [encodeNNN, fieldOp, fieldNNN, BitVec.extractLsb'_append_extractLsb'_eq_extractLsb']
  · exact BitVec.extractLsb'_eq_self
  · rfl

theorem encodeXNN_fields (w : Word) : encodeXNN (fieldOp w) (fieldX w) (fieldNN w) = w := by
  rw [encodeXNN, fieldOp, fieldX, BitVec.extractLsb'_append_extractLsb'_eq_extractLsb']
  · exact composeWord_highByte_lowByte w
  · rfl

theorem encodeXYN_fields (w : Word) : encodeXYN (fieldOp w) (fieldX w) (fieldY w) (fieldN w) = w := by
  rw [encodeXYN, fieldOp, fieldX, fieldY, fieldN, BitVec.extractLsb'_append_extractLsb'_eq_extractLsb',
    BitVec.extractLsb'_append_extractLsb'_eq_extractLsb', BitVec.extractLsb'_append_extractLsb'_eq_extractLsb']
  · exact BitVec.extractLsb'_eq_self
  all_goals rfl

section
variable {w : Word} {op : Nibble} (hop : fieldOp w = op)
include hop

theorem encodeNNN_of_fieldOp : encodeNNN op (fieldNNN w) = w := hop ▸ encodeNNN_fields w

theorem encodeXNN_of_fieldOp : encodeXNN op (fieldX w) (fieldNN w) = w := hop ▸ encodeXNN_fields w

theorem encodeXNN_of_fieldNN {nn : Byte} (hnn : fieldNN w = nn) : encodeXNN op (fieldX w) nn = w :=
  hnn ▸ encodeXNN_of_fieldOp hop

theorem encodeXYN_of_fieldOp : encodeXYN op (fieldX w) (fieldY w) (fieldN w) = w := hop ▸ encodeXYN_fields w

theorem encodeXYN_of_fieldN {n : Nibble} (hn : fieldN w = n) : encodeXYN op (fieldX w) (fieldY w) n = w :=
  hn ▸ encodeXYN_of_fieldOp hop

end

/-! ## The decoder keeps the word -/

/-- The word of a decoder outcome: the encoding of an instruction, or the unknown word itself. -/
def Decoded.word : Decoded → Word
  | .instr i => encode i
  | .unknown u => u

theorem decodeAlu_word {w : Word} (hop : fieldOp w = 0x8) : (decodeAlu w).word = w := by
  unfold decodeAlu
  split
  case h_10 => rfl
  all_goals exact encodeXYN_of_fieldN hop ‹_›

theorem decodeKey_word {w : Word} (hop : fieldOp w = 0xE) : (decodeKey w).word = w := by
  unfold decodeKey
  split
  case h_3 => rfl
  all_goals exact encodeXNN_of_fieldNN hop ‹_›

theorem decodeMisc_word {w : Word} (hop : fieldOp w = 0xF) : (decodeMisc w).word = w := by
  unfold decodeMisc
  split
  case h_10 => rfl
  all_goals exact encodeXNN_of_fieldNN hop ‹_›

/-- What is decoded from a word stands for that word, all of its bits included (R53). The cases are `op1`'s, from 0 to F. -/
theorem decodeWord_word (w : Word) : (decodeWord w).word = w := by
  unfold decodeWord
  split <;> rename_i hop
  · split
    next hcls => exact hcls.symm
    next =>
      split
      next hret => exact hret.symm
      next => rfl
  · exact encodeNNN_of_fieldOp hop
  · exact encodeNNN_of_fieldOp hop
  · exact encodeXNN_of_fieldOp hop
  · exact encodeXNN_of_fieldOp hop
  · split
    next hn => exact encodeXYN_of_fieldN hop hn
    next => rfl
  · exact encodeXNN_of_fieldOp hop
  · exact encodeXNN_of_fieldOp hop
  · exact decodeAlu_word hop
  · split
    next hn => exact encodeXYN_of_fieldN hop hn
    next => rfl
  · exact encodeNNN_of_fieldOp hop
  · exact encodeNNN_of_fieldOp hop
  · exact encodeXNN_of_fieldOp hop
  · exact encodeXYN_of_fieldOp hop
  · exact decodeKey_word hop
  · exact decodeMisc_word hop
  · rfl

/-! ## The rows of the table (R52) -/

theorem opcodeRow_mem_opcodeTable (i : Instr) : opcodeRow i ∈ opcodeTable := by
  cases i <;> simp only [opcodeTable, opcodeRow, List.mem_append, List.mem_cons, true_or, or_true]

/-- The table holds no row but the instructions'. -/
theorem exists_opcodeRow_eq_of_mem : ∀ r ∈ opcodeTable, ∃ i, opcodeRow i = r := by
  simp only [opcodeTable, List.forall_mem_append, List.forall_mem_cons, exists_apply_eq_apply, List.not_mem_nil,
    false_implies, implies_true, and_self]

open Laws.RowMatch in
/-- An encoded instruction has its row's fixed bits, whichever instruction it is. -/
theorem encode_and_mask : (i : Instr) → Statement i
  | .cls => cls | .ret => ret | .jp n => jp n | .call n => call n | .seImm x n => seImm x n | .sneImm x n => sneImm x n
  | .seReg x y => seReg x y | .ldImm x n => ldImm x n | .addImm x n => addImm x n | .ldReg x y => ldReg x y
  | .orReg x y => orReg x y | .andReg x y => andReg x y | .xorReg x y => xorReg x y | .addReg x y => addReg x y
  | .sub x y => sub x y | .shr x y => shr x y | .subn x y => subn x y | .shl x y => shl x y | .sneReg x y => sneReg x y
  | .ldI n => ldI n | .jpV0 n => jpV0 n | .rnd x n => rnd x n | .drw x y n => drw x y n | .skp x => skp x | .sknp x => sknp x
  | .ldVxDt x => ldVxDt x | .ldVxK x => ldVxK x | .ldDtVx x => ldDtVx x | .ldStVx x => ldStVx x | .addI x => addI x
  | .ldF x => ldF x | .ldB x => ldB x | .storeRegs x => storeRegs x | .loadRegs x => loadRegs x

theorem opcodeRow_matches_encode (i : Instr) : (opcodeRow i).matchesWord (encode i) = true :=
  beq_iff_eq.mpr (encode_and_mask i)

/-- A word that matches an instruction's row agrees with the encoded instruction on the row's fixed bits. -/
theorem and_mask_eq_of_matches {i : Instr} {w : Word} (h : (opcodeRow i).matchesWord w = true) :
    w &&& (opcodeRow i).mask = encode i &&& (opcodeRow i).mask :=
  (beq_iff_eq.mp h).trans (encode_and_mask i).symm

/-! ## Words that agree under a mask -/

theorem fieldOp_and (w v : Word) : fieldOp (w &&& v) = fieldOp w &&& fieldOp v := BitVec.extractLsb'_and

theorem fieldN_and (w v : Word) : fieldN (w &&& v) = fieldN w &&& fieldN v := BitVec.extractLsb'_and

theorem fieldNN_and (w v : Word) : fieldNN (w &&& v) = fieldNN w &&& fieldNN v := BitVec.extractLsb'_and

/-- Words that agree under the full mask are equal. -/
theorem eq_of_and_FFFF {w v : Word} (h : w &&& 0xFFFF#16 = v &&& 0xFFFF#16) : w = v :=
  BitVec.and_allOnes.symm.trans (h.trans BitVec.and_allOnes)

section
variable {w v m : Word} (h : w &&& m = v &&& m)
include h

/-- Words that agree under a mask covering `op1` have the same `op1`. -/
theorem fieldOp_congr (hm : fieldOp m = 0xF#4) : fieldOp w = fieldOp v := by
  have hand := congrArg fieldOp h
  rwa [fieldOp_and, fieldOp_and, hm, nibble_and_F, nibble_and_F] at hand

/-- Words that agree under a mask covering `op4` have the same N. -/
theorem fieldN_congr (hm : fieldN m = 0xF#4) : fieldN w = fieldN v := by
  have hand := congrArg fieldN h
  rwa [fieldN_and, fieldN_and, hm, nibble_and_F, nibble_and_F] at hand

/-- Words that agree under a mask covering the low byte have the same NN. -/
theorem fieldNN_congr (hm : fieldNN m = 0xFF#8) : fieldNN w = fieldNN v := by
  have hand := congrArg fieldNN h
  rwa [fieldNN_and, fieldNN_and, hm, byte_and_FF, byte_and_FF] at hand

end

/-! ## The decoder finds every matching row -/

/-- A word that matches an instruction's row decodes to an instruction of that row (R53). -/
theorem exists_decodeWord_of_matches {i : Instr} {w : Word} (h : (opcodeRow i).matchesWord w = true) :
    ∃ j, decodeWord w = .instr j ∧ opcodeRow j = opcodeRow i := by
  have hagree := and_mask_eq_of_matches h
  have hop : fieldOp w = fieldOp (encode i) := fieldOp_congr hagree (by cases i <;> simp [opcodeRow, fieldOp])
  cases i with
  | cls | ret =>
    have hw : w = encode _ := eq_of_and_FFFF hagree
    simp [decodeWord, hw, encode, fieldOp]
  | jp | call | seImm | sneImm | ldImm | addImm | ldI | jpV0 | rnd | drw =>
    simp [decodeWord, hop, encode]
    rfl
  | seReg | sneReg =>
    have hn := fieldN_congr (m := 0xF00F) hagree (by decide)
    simp [decodeWord, hop, hn, encode]
    rfl
  | ldReg | orReg | andReg | xorReg | addReg | sub | shr | subn | shl =>
    have hn := fieldN_congr (m := 0xF00F) hagree (by decide)
    simp [decodeWord, hop, decodeAlu, hn, encode]
    rfl
  | skp | sknp =>
    have hnn := fieldNN_congr (m := 0xF0FF) hagree (by decide)
    simp [decodeWord, hop, decodeKey, hnn, encode]
    rfl
  | ldVxDt | ldVxK | ldDtVx | ldStVx | addI | ldF | ldB | storeRegs | loadRegs =>
    have hnn := fieldNN_congr (m := 0xF0FF) hagree (by decide)
    simp [decodeWord, hop, decodeMisc, hnn, encode]
    rfl

/-- A row of the table that matches a word is the row of the instruction decoded from it. -/
theorem exists_decodeWord_of_mem_matches {r : OpRow} {w : Word} (hr : r ∈ opcodeTable) (h : r.matchesWord w = true) :
    ∃ i, decodeWord w = .instr i ∧ opcodeRow i = r := by
  obtain ⟨i, rfl⟩ := exists_opcodeRow_eq_of_mem r hr
  exact exists_decodeWord_of_matches h

/-- Settles O3: the decoded instruction keeps the word's bits, so its row matches; any row that matches is the decoded one, so it is the
only one, and an unknown word has none. -/
theorem everyWordHasOneRowOrIsUnknown : Obligations.EveryWordHasOneRowOrIsUnknown := by
  intro w
  have hword : (decodeWord w).word = w := decodeWord_word w
  cases hdec : decodeWord w with
  | instr i =>
    have henc : encode i = w := by rwa [hdec] at hword
    refine .inl ⟨i, rfl, henc, opcodeRow_mem_opcodeTable i, henc ▸ opcodeRow_matches_encode i, fun r hr hmatch => ?_⟩
    obtain ⟨j, hj, rfl⟩ := exists_decodeWord_of_mem_matches hr hmatch
    cases hdec.symm.trans hj
    rfl
  | unknown u =>
    have hu : u = w := by rwa [hdec] at hword
    refine .inr ⟨hu ▸ rfl, fun r hr => Bool.eq_false_iff.mpr fun hmatch => ?_⟩
    obtain ⟨j, hj, -⟩ := exists_decodeWord_of_mem_matches hr hmatch
    cases hdec.symm.trans hj

end Sys2Proof
end

section
/-! The statements about the immediate skips and CALL (40_control.md R61–R63), with the rules they rest on: an instruction that only skips
has the PC and the frame of the skip, and CALL is a push and a write of PC while the stack has room. -/

namespace Sys2Proof.Machine

variable (s : State)

/-! ## Skips (R58, R62, R63) -/

/-- An instruction that answers a skip and nothing else. -/
theorem completes_of_exec_eq_skipIf {i : Instr} {c : Bool} (h : exec i s = .next (s.skipIf c)) :
    Completes i s fun t => PcPast s.pc t.pc (if c = true then 4 else 2) ∧ UnchangedBut [.pc] s t :=
  ⟨s.skipIf c, h, s.skipIf_pcPast c, s.skipIf_frame c⟩

/-- Settles O14: both are skips, one on the comparison and one on its negation. -/
theorem immediateSkipsMoveOnlyPc : Obligations.ImmediateSkipsMoveOnlyPc := by
  intro s x nn
  have hse := completes_of_exec_eq_skipIf s (i := .seImm x nn) (c := s.getV x == nn) rfl
  have hsne := completes_of_exec_eq_skipIf s (i := .sneImm x nn) (c := s.getV x != nn) rfl
  simp only [beq_iff_eq] at hse
  simp only [bne_iff_ne, ite_not] at hsne
  exact ⟨hse, hsne⟩

/-! ## CALL (R61) -/

/-- A jump target keeps its number when it is widened to PC. -/
theorem zext16_toNat (nnn : Addr12) : (zext16 nnn).toNat = nnn.toNat :=
  BitVec.toNat_setWidth_of_le (by decide)

/-- A push fails exactly on a full stack (R23). -/
theorem State.push_eq_none {a : Word} : s.push a = none ↔ s.cfg.stackDepth ≤ s.stack.length := by
  simp [State.push]

/-- With room on the stack, CALL pushes p and then writes PC. -/
theorem exec_call_of_lt {nnn : Addr12} (h : s.stack.length < s.cfg.stackDepth) :
    exec (.call nnn) s = .next ((s.setStack (s.pc :: s.stack)).setPc (zext16 nnn)) := by
  have hpush : s.push s.pc = some (s.setStack (s.pc :: s.stack)) := s.push_eq_some.mpr ⟨h, rfl⟩
  change execCall nnn s = _
  rw [execCall, hpush]

/-- On a full stack CALL raises STACK_OVERFLOW and does nothing else. -/
theorem exec_call_of_full {nnn : Addr12} (h : s.cfg.stackDepth ≤ s.stack.length) :
    exec (.call nnn) s = .next (s.raise .stackOverflow noInfo) := by
  have hpush : s.push s.pc = none := s.push_eq_none.mpr h
  change execCall nnn s = _
  rw [execCall, hpush]

/-- Settles O17: with room, a stack write and a PC write, with their frames; on a full stack, the raise, which leaves PC alone. -/
theorem callPushesAndJumps : Obligations.CallPushesAndJumps := by
  intro s nnn
  refine ⟨fun hroom => ⟨_, exec_call_of_lt s hroom, rfl, zext16_toNat nnn, ?frame⟩,
    fun hfull => ⟨_, exec_call_of_full s hfull, State.raise_fault _ _ _, State.raise_pc _ _ _⟩⟩
  case frame => exact (State.setStack_frame s _).comp (State.setPc_frame _ _)

end Sys2Proof.Machine
end

section
/-! The statements about the loads and the flag-writing ALU rows (41_alu.md R69–R77), with the rules they rest on: what an instruction
leaves that is one register write, or a result write and then a flag write, followed by the default advance. -/

namespace Sys2Proof.Machine

/-- What holds of the completed state may be weakened. -/
theorem Completes.imp {s : State} {i : Instr} {P Q : State → Prop} (h : Completes i s P) (hPQ : ∀ t, P t → Q t) :
    Completes i s Q :=
  let ⟨t, ht, hP⟩ := h
  ⟨t, ht, hPQ t hP⟩

variable (s : State)

/-! ## One register write (R69–R71) -/

/-- An instruction that writes one register and advances. -/
theorem completes_of_exec_eq_setV {i : Instr} {x : Reg} {b : Byte} (h : exec i s = .next (s.setV x b).advance) :
    Completes i s fun t => t.getV x = b ∧ PcPast s.pc t.pc 2 ∧ UnchangedBut [.reg x, .pc] s t :=
  ⟨_, h, s.getV_setV_same x b, (s.setV x b).advance_pcPast, (s.setV_frame x b).comp (State.advance_frame _)⟩

/-- Settles O8: each is one register write; the sum of the second wraps as bytes add. -/
theorem immediatesAndMoveWriteOnlyX : Obligations.ImmediatesAndMoveWriteOnlyX := by
  intro s x y nn
  refine ⟨completes_of_exec_eq_setV s rfl, ?addImm, completes_of_exec_eq_setV s rfl⟩
  case addImm =>
    have hadd := completes_of_exec_eq_setV s (i := .addImm x nn) (b := s.getV x + nn) rfl
    exact hadd.imp fun t ⟨hx, hrest⟩ => ⟨hx ▸ BitVec.toNat_add (s.getV x) nn, hrest⟩

/-! ## The result, then the flag (R68) -/

/-- An instruction that writes a result and then VF, and advances: with X = 15 the flag stays. -/
theorem completes_of_exec_eq_writeThenFlag {i : Instr} {x : Reg} {r f : Byte}
    (h : exec i s = .next (s.writeThenFlag x r f).advance) :
    Completes i s fun t => (x ≠ vf → t.getV x = r) ∧ t.getV vf = f ∧
      PcPast s.pc t.pc 2 ∧ UnchangedBut [.reg x, .reg vf, .pc] s t := by
  refine ⟨_, h, fun hx => ?result, ?flag, State.advance_pcPast (s.writeThenFlag x r f), ?frame⟩
  case result => simp [State.getV_writeThenFlag, hx]
  case flag => simp [State.getV_writeThenFlag]
  case frame => exact (s.writeThenFlag_frame x r f).comp (State.advance_frame _)

/-! ## Logic (R72–R74) -/

/-- An instruction that writes a result known bit by bit and clears VF. -/
theorem completes_of_exec_eq_clearFlag {i : Instr} {x : Reg} {r : Byte} {bits : Nat → Bool}
    (h : exec i s = .next (s.writeThenFlag x r 0).advance) (hbits : ∀ j, r.getLsbD j = bits j) :
    Completes i s fun t => t.getV vf = 0 ∧ (x ≠ vf → ∀ j, (t.getV x).getLsbD j = bits j) ∧
      PcPast s.pc t.pc 2 ∧ UnchangedBut [.reg x, .reg vf, .pc] s t :=
  (completes_of_exec_eq_writeThenFlag s h).imp fun _ ⟨hresult, hflag, hrest⟩ =>
    ⟨hflag, fun hx j => hresult hx ▸ hbits j, hrest⟩

/-- Settles O9: each writes a bitwise result and clears VF last. -/
theorem logicWritesXAndClearsVf : Obligations.LogicWritesXAndClearsVf := fun s _ _ =>
  ⟨completes_of_exec_eq_clearFlag s rfl fun _ => BitVec.getLsbD_or,
   completes_of_exec_eq_clearFlag s rfl fun _ => BitVec.getLsbD_and,
   completes_of_exec_eq_clearFlag s rfl fun _ => BitVec.getLsbD_xor⟩

/-! ## Addition and subtraction (R75–R77) -/

theorem flagByte_toNat (b : Bool) : (flagByte b).toNat = if b then 1 else 0 := by
  cases b <;> rfl

theorem carryFlag_toNat (a b : Byte) : (carryFlag a b).toNat = if a.toNat + b.toNat > 255 then 1 else 0 := by
  simp [carryFlag, flagByte_toNat]

theorem noBorrowFlag_toNat (a b : Byte) : (noBorrowFlag a b).toNat = if a.toNat ≥ b.toNat then 1 else 0 := by
  simp [noBorrowFlag, flagByte_toNat]

/-- Bytes subtract as integers do, modulo 256. -/
theorem toNat_sub_eq_emod (a b : Byte) : ((a - b).toNat : Int) = ((a.toNat : Int) - b.toNat) % 256 := by
  have hb : b.toNat < 256 := b.isLt
  rw [BitVec.toNat_sub]
  omega

/-- Settles O10: the sum is written first, and then the carry of the operands read before it. -/
theorem addWritesSumAndCarry : Obligations.AddWritesSumAndCarry := by
  intro s x y
  have hadd := completes_of_exec_eq_writeThenFlag s (i := .addReg x y) rfl
  exact hadd.imp fun t ⟨hresult, hflag, hrest⟩ =>
    ⟨fun hx => hresult hx ▸ BitVec.toNat_add (s.getV x) (s.getV y), hflag ▸ carryFlag_toNat (s.getV x) (s.getV y), hrest⟩

/-- An instruction that writes a difference and then whether it needed no borrow. -/
theorem completes_of_exec_eq_difference {i : Instr} {x : Reg} {a b : Byte}
    (h : exec i s = .next (s.writeThenFlag x (a - b) (noBorrowFlag a b)).advance) :
    Completes i s fun t =>
      (x ≠ vf → ((t.getV x).toNat : Int) = ((a.toNat : Int) - b.toNat) % 256) ∧
      (t.getV vf).toNat = (if a.toNat ≥ b.toNat then 1 else 0) ∧
      PcPast s.pc t.pc 2 ∧ UnchangedBut [.reg x, .reg vf, .pc] s t :=
  (completes_of_exec_eq_writeThenFlag s h).imp fun _ ⟨hresult, hflag, hrest⟩ =>
    ⟨fun hx => hresult hx ▸ toNat_sub_eq_emod a b, hflag ▸ noBorrowFlag_toNat a b, hrest⟩

/-- Settles O11: SUB and SUBN write a difference and its no-borrow flag, one with the operands exchanged. -/
theorem subtractionsWriteDifferenceAndNoBorrow : Obligations.SubtractionsWriteDifferenceAndNoBorrow := fun s _ _ =>
  ⟨completes_of_exec_eq_difference s rfl, completes_of_exec_eq_difference s rfl⟩

end Sys2Proof.Machine
end

section
/-! The statement about LD I,NNN (42_index_memory.md R81), with the rule it rests on: what an instruction leaves that is one write of I,
followed by the default advance. -/

namespace Sys2Proof.Machine

variable (s : State)

/-- An instruction that writes I and advances. -/
theorem completes_of_exec_eq_setI {i : Instr} {a : Word} (h : exec i s = .next (s.setI a).advance) :
    Completes i s fun t => t.i = a ∧ PcPast s.pc t.pc 2 ∧ UnchangedBut [.index, .pc] s t :=
  ⟨_, h, rfl, (s.setI a).advance_pcPast, (s.setI_frame a).comp (State.advance_frame _)⟩

/-- Settles O21: LD I,NNN is one write of I, and the 12-bit operand keeps its number when it is widened. -/
theorem loadIndexSetsI : Obligations.LoadIndexSetsI := by
  intro s nnn
  have hldI := completes_of_exec_eq_setI s (i := .ldI nnn) (a := zext16 nnn) rfl
  exact hldI.imp fun t ⟨hindex, hrest⟩ => ⟨hindex ▸ zext16_toNat nnn, hrest⟩

end Sys2Proof.Machine
end

section
/-! The statements about the display (43_display.md R88, R92–R94), with the facts they rest on: a byte is nonzero where some lane of it
is set, and on a legal display every pixel lies in one of the frame buffer's bytes. -/

namespace Sys2Proof.Machine

/-! ## XorByte (R88) -/

/-- A conjunction of bytes is nonzero exactly where some lane is set in both. -/
theorem and_ne_zero_iff_exists_lane {a m : Byte} :
    a &&& m ≠ 0 ↔ ∃ j, a.getLsbD j = true ∧ m.getLsbD j = true := by
  constructor
  · refine fun hne => Classical.byContradiction fun hnone => hne (BitVec.eq_of_getLsbD_eq fun j _ => ?_)
    have hlane : (a.getLsbD j && m.getLsbD j) = false :=
      Bool.eq_false_iff.mpr fun h => hnone ⟨j, Bool.and_eq_true_iff.mp h⟩
    rw [BitVec.getLsbD_and, hlane]
    exact BitVec.getLsbD_zero.symm
  · intro ⟨j, ha, hm⟩ hzero
    have hlane : (a &&& m).getLsbD j = true := BitVec.getLsbD_and.trans (Bool.and_eq_true_iff.mpr ⟨ha, hm⟩)
    rw [hzero] at hlane
    exact Bool.false_ne_true (BitVec.getLsbD_zero.symm.trans hlane)

/-- A lane of byte `a` after XorByte at byte `b`. -/
theorem Canvas.xorByte_lane (k : Canvas) {b : Nat} (m : Byte) (hb : b < k.fb.length) (a j : Nat) :
    ((k.xorByte b m).fb.getD a 0).getLsbD j =
      if a = b then ((k.fb.getD a 0).getLsbD j != m.getLsbD j) else (k.fb.getD a 0).getLsbD j := by
  rw [k.xorByte_getD b a m hb]
  split
  · exact BitVec.getLsbD_xor
  · rfl

/-- XorByte records a collision where a lane of the mask meets a set lane of the byte. -/
theorem Canvas.xorByte_collided_iff (k : Canvas) (b : Nat) (m : Byte) :
    (k.xorByte b m).collided = true ↔
      k.collided = true ∨ ∃ j, (k.fb.getD b 0).getLsbD j = true ∧ m.getLsbD j = true := by
  rw [k.xorByte_collided, Bool.or_eq_true, bne_iff_ne, and_ne_zero_iff_exists_lane]

/-- Settles O30: the lanes flip where the mask has them, so a set lane is cleared exactly where the mask meets it. -/
theorem xorByteFlipsLanesAndDetectsCollision : Obligations.XorByteFlipsLanesAndDetectsCollision := by
  intro k b m hb
  refine ⟨k.xorByte_length b m, k.xorByte_lane m hb, ?collision⟩
  case collision =>
    have hcleared : ∀ j, (k.fb.getD b 0).getLsbD j = true →
        (((k.xorByte b m).fb.getD b 0).getLsbD j = false ↔ m.getLsbD j = true) := by
      intro j hset
      rw [k.xorByte_lane m hb, if_pos rfl, hset]
      simp
    rw [k.xorByte_collided_iff]
    exact or_congr_right (exists_congr fun j => and_congr_right fun hset => (hcleared j hset).symm)

/-! ## CLS (R92, R94) -/

/-- Clear leaves only zero bytes. -/
theorem eq_zero_of_mem_clearFb {fb : List Byte} {b : Byte} (h : b ∈ clearFb fb) : b = 0 := by
  obtain ⟨_, _, hb⟩ := List.mem_map.mp h
  exact hb.symm

/-- Settles O29: CLS is one write of the frame buffer and the default advance, and has their frames. -/
theorem clearZeroesEveryByte : Obligations.ClearZeroesEveryByte := by
  intro s
  refine ⟨(s.setFb (clearFb s.fb)).advance, rfl, clearFb_length s.fb, fun _ => eq_zero_of_mem_clearFb, ?pc, ?frame⟩
  case pc => exact State.advance_pcPast (s.setFb _)
  case frame => exact (s.setFb_frame _).comp (State.advance_frame _)

/-! ## The pixel query (R93, R115) -/

/-- A legal display row is whole bytes (R6). -/
theorem width_eq_of_legal {c : Config} (h : c.legal = true) : c.width = 8 * c.bytesPerRow := by
  simp only [Config.legal, Config.widthLegal, Bool.and_eq_true, decide_eq_true_eq] at h
  obtain ⟨⟨⟨⟨_, hmod, _⟩, _⟩, _⟩, _⟩ := h
  exact (Nat.mul_div_cancel' (Nat.dvd_of_mod_eq_zero hmod)).symm

/-- The frame buffer of a legal display is its rows (R31). -/
theorem fbBytes_eq_of_legal {c : Config} (h : c.legal = true) : c.fbBytes = c.height * c.bytesPerRow := by
  rw [Config.fbBytes, width_eq_of_legal h, Nat.mul_assoc, Nat.mul_div_cancel_left _ (by decide), Nat.mul_comm]

/-- The byte of a pixel inside a legal display is inside the frame buffer. -/
theorem pixelByte_lt_fbBytes {c : Config} (h : c.legal = true) {x y : Nat} (hx : x < c.width) (hy : y < c.height) :
    y * c.bytesPerRow + x / 8 < c.fbBytes := by
  have hcol : x / 8 < c.bytesPerRow := Nat.div_lt_of_lt_mul (width_eq_of_legal h ▸ hx)
  calc y * c.bytesPerRow + x / 8
    _ < y * c.bytesPerRow + c.bytesPerRow := Nat.add_lt_add_left hcol _
    _ = (y + 1) * c.bytesPerRow := (Nat.succ_mul y _).symm
    _ ≤ c.height * c.bytesPerRow := Nat.mul_le_mul_right _ hy
    _ = c.fbBytes := (fbBytes_eq_of_legal h).symm

/-- A pixel is its bit of the byte that holds it. -/
theorem pixelOf_of_getElem? {c : Config} {fb : List Byte} {x y : Nat} {b : Byte}
    (h : fb[y * c.bytesPerRow + x / 8]? = some b) : pixelOf c fb x y = b.getLsbD (7 - x % 8) := by
  rw [pixelOf, List.getD_eq_getElem?_getD, h, Option.getD_some]

/-- Inside the display the query answers the pixel. -/
theorem screenValue_inside {s : State} {x y : Nat} (hx : x < s.cfg.width) (hy : y < s.cfg.height) :
    screenValue x y s = .next (pixelOf s.cfg s.fb x y) :=
  if_pos ⟨hx, hy⟩

/-- Outside the display the query is refused. -/
theorem screenValue_outside {s : State} {x y : Nat} (h : s.cfg.width ≤ x ∨ s.cfg.height ≤ y) :
    screenValue x y s = .refused (.pixelRange x y) :=
  if_neg (by omega)

/-- Settles O35: a pixel inside has its byte, whose bit the query answers; one outside is refused. -/
theorem pixelQueryReadsItsBit : Obligations.PixelQueryReadsItsBit := by
  intro s hlegal hsize
  refine ⟨rfl, rfl, fun x y => ⟨fun hx hy => ?inside, fun hout => ⟨_, screenValue_outside hout⟩⟩⟩
  case inside =>
    have hlt : y * s.cfg.bytesPerRow + x / 8 < s.fb.length := hsize ▸ pixelByte_lt_fbBytes hlegal hx hy
    have hbyte := List.getElem?_eq_getElem hlt
    exact ⟨_, hbyte, (screenValue_inside hx hy).trans (congrArg _ (pixelOf_of_getElem? hbyte))⟩

end Sys2Proof.Machine
end

section
/-! The statement about the timer instructions (44_timers_keys.md R101, R103, R104), with the rules it rests on: a tick executes the
decoded instruction on the state its start leaves (R57), and that start has decayed the timers and left the registers (R96). -/

namespace Sys2Proof.Machine

variable (s : State)

/-! ## A tick of a decoded instruction (R57) -/

/-- A clean block executes the instruction it fetches on the state after the start of the tick, and ends the tick. -/
theorem step_of_fetches {i : Instr} (hclean : s.clean) (hfetch : s.fetches i) :
    step s = tickEnd (isSelfJump i s.pc) (exec i s.tickBegin) := by
  obtain ⟨w, hw, hdecode⟩ := hfetch
  simp only [step_of_fetch s hclean hw, runWord, hdecode, State.tickBegin_pc]

/-- Where the instruction raises no fault, the tick answers its state with FINISHED written. -/
theorem step_of_fetches_of_exec {i : Instr} {t : State} (hclean : s.clean) (hfetch : s.fetches i)
    (hexec : exec i s.tickBegin = .next t) (ht : t.clean) : step s = .next (t.setFinished (isSelfJump i s.pc)) := by
  have hnofault : ¬ t.fault.isSome = true := by simp [ht]
  rw [step_of_fetches s hclean hfetch, hexec, tickEnd, if_neg hnofault]

/-! ## The timers (R96, R101, R103, R104) -/

/-- Decay subtracts one, floored at 0. -/
theorem decay_toNat (b : Byte) : (decay b).toNat = b.toNat - 1 := by
  unfold decay
  split
  next hzero => simp [hzero]
  next hne => bv_omega

/-- The beep output follows ST (R104). -/
theorem isBeeping_iff : isBeeping s = true ↔ s.st ≠ 0 := bne_iff_ne

/-- An instruction that writes DT and advances. -/
theorem completes_of_exec_eq_setDt {i : Instr} {b : Byte} (h : exec i s = .next (s.setDt b).advance) :
    Completes i s fun t => t.dt = b ∧ PcPast s.pc t.pc 2 ∧ UnchangedBut [.delay, .pc] s t :=
  ⟨_, h, rfl, (s.setDt b).advance_pcPast, (s.setDt_frame b).comp (State.advance_frame _)⟩

/-- An instruction that writes ST and advances. -/
theorem completes_of_exec_eq_setSt {i : Instr} {b : Byte} (h : exec i s = .next (s.setSt b).advance) :
    Completes i s fun t => t.st = b ∧ (isBeeping t = true ↔ b ≠ 0) ∧ PcPast s.pc t.pc 2 ∧ UnchangedBut [.sound, .pc] s t :=
  ⟨_, h, rfl, isBeeping_iff _, (s.setSt b).advance_pcPast, (s.setSt_frame b).comp (State.advance_frame _)⟩

/-- Settles O37: each is one write and the default advance; in a tick the write finds DT decayed and the registers as they were. -/
theorem timerMovesCopyTheRegister : Obligations.TimerMovesCopyTheRegister := by
  intro s x
  refine ⟨completes_of_exec_eq_setV s rfl, ?readInTick, completes_of_exec_eq_setDt s rfl, completes_of_exec_eq_setSt s rfl,
    ?delayInTick, ?soundInTick⟩
  case readInTick =>
    intro hclean hfetch
    have hread : ((s.tickBegin.setV x s.tickBegin.dt).getV x).toNat = s.dt.toNat - 1 := by
      rw [State.getV_setV_same, State.tickBegin_dt, decay_toNat]
    exact ⟨_, step_of_fetches_of_exec s hclean hfetch rfl hclean, hread⟩
  case delayInTick => exact fun hclean hfetch => ⟨_, step_of_fetches_of_exec s hclean hfetch rfl hclean, s.getV_tickBegin x⟩
  case soundInTick =>
    exact fun hclean hfetch =>
      ⟨_, step_of_fetches_of_exec s hclean hfetch rfl hclean, s.getV_tickBegin x, isBeeping_iff _⟩

end Sys2Proof.Machine
end

section
/-! The statements about decoding words and encoded instructions (30_encoding.md R50–R53). -/

namespace Sys2Proof

/-- The encoding of an instruction decodes to it: the decoder branches on the fields the encoding fixes, and the others are the
operands. -/
theorem decodeWord_encode (i : Instr) : decodeWord (encode i) = .instr i := by
  cases i with
  | cls | ret => rfl
  | jp | call | ldI | jpV0 | seImm | sneImm | ldImm | addImm | rnd | drw | seReg | sneReg => simp [decodeWord, encode]
  | ldReg | orReg | andReg | xorReg | addReg | sub | shr | subn | shl => simp [decodeWord, decodeAlu, encode]
  | skp | sknp => simp [decodeWord, decodeKey, encode]
  | ldVxDt | ldVxK | ldDtVx | ldStVx | addI | ldF | ldB | storeRegs | loadRegs => simp [decodeWord, decodeMisc, encode]

/-- Settles O2: the two bytes compose to the encoded word, and that decodes to the instruction. -/
theorem decodeOfEncodeIsTheInstruction : Obligations.DecodeOfEncodeIsTheInstruction := by
  intro i rest
  calc decodeBytes (encodeBytes i ++ rest)
    _ = .word (decodeWord (composeWord (highByte (encode i)) (lowByte (encode i)))) rest := rfl
    _ = .word (.instr i) rest := by rw [composeWord_highByte_lowByte, decodeWord_encode]

/-- Settles O1: each word is a literal, and the decoder computes on it. -/
theorem writtenWordsDecode : Obligations.WrittenWordsDecode := by
  unfold Obligations.WrittenWordsDecode
  decide

end Sys2Proof
end

section
/-! What each instruction that can fault answers, with and without the fault (40_control.md, 42_index_memory.md, 43_display.md,
44_timers_keys.md, R105), and from it the one case distinction the statements about faults rest on. -/

namespace Sys2Proof.Machine

variable (s : State)

/-! ## RET (R59) -/

theorem exec_ret_of_nil (h : s.stack = []) : exec .ret s = .next (s.raise .stackUnderflow noInfo) := by
  have hpop : s.pop = none := by rw [State.pop, h]
  change execRet s = _
  rw [execRet, hpop]

theorem exec_ret_of_cons {r : Word} {rest : List Word} (h : s.stack = r :: rest) :
    exec .ret s = .next ((s.setStack rest).setPc (r + 2)) := by
  have hpop : s.pop = some (r, s.setStack rest) := s.pop_eq_some.mpr ⟨rest, h, rfl⟩
  change execRet s = _
  rw [execRet, hpop]

/-! ## SKP and SKNP (R99, R100) -/

theorem keyNumber_of_eq {b : Byte} {k : Fin 16} (h : b.toNat = k.val) : keyNumber b = some k := by
  simp [keyNumber, h]

theorem keyNumber_of_gt {b : Byte} (h : 15 < b.toNat) : keyNumber b = none :=
  dif_neg (by omega)

theorem exec_skp_of_eq {x : Reg} {k : Fin 16} (h : (s.getV x).toNat = k.val) :
    exec (.skp x) s = .next (s.skipIf (s.key k)) := by
  change execSkp x s = _
  rw [execSkp, keyNumber_of_eq h]

theorem exec_skp_of_gt {x : Reg} (h : 15 < (s.getV x).toNat) :
    exec (.skp x) s = .next (s.raise .keyRange (infoOf (s.getV x).toNat)) := by
  change execSkp x s = _
  rw [execSkp, keyNumber_of_gt h]

theorem exec_sknp_of_eq {x : Reg} {k : Fin 16} (h : (s.getV x).toNat = k.val) :
    exec (.sknp x) s = .next (s.skipIf (!s.key k)) := by
  change execSknp x s = _
  rw [execSknp, keyNumber_of_eq h]

theorem exec_sknp_of_gt {x : Reg} (h : 15 < (s.getV x).toNat) :
    exec (.sknp x) s = .next (s.raise .keyRange (infoOf (s.getV x).toNat)) := by
  change execSknp x s = _
  rw [execSknp, keyNumber_of_gt h]

/-! ## LD F (R83) -/

theorem exec_ldF_of_gt {x : Reg} (h : 15 < (s.getV x).toNat) :
    exec (.ldF x) s = .next (s.raise .fontRange (infoOf (s.getV x).toNat)) :=
  if_pos h

/-! ## DRW (R95) -/

/-- The N bytes at I, as the range read answers them. -/
def State.spriteRows (s : State) (n : Nibble) : List Byte := (List.range n.toNat).map fun k => s.byteAt (s.base + k)

theorem exec_drw_of_le {x y : Reg} {n : Nibble} (h : s.base + n.toNat ≤ s.cfg.memSize) :
    exec (.drw x y n) s =
      .next (s.applyCanvas (blit s.cfg (s.getV x).toNat (s.getV y).toNat (s.spriteRows n) s.fb)).advance := by
  have hread : s.memReadRange s.base n.toNat = some (s.spriteRows n) := if_pos h
  change execDrw x y n s = _
  rw [execDrw, hread]

theorem exec_drw_of_gt {x y : Reg} {n : Nibble} (h : ¬ s.base + n.toNat ≤ s.cfg.memSize) :
    exec (.drw x y n) s = .next (s.raise .memReadRange s.rangeInfo) := by
  have hread : s.memReadRange s.base n.toNat = none := if_neg h
  change execDrw x y n s = _
  rw [execDrw, hread]

/-! ### The write-back of the blit -/

theorem State.applyCanvas_fb (k : Canvas) : (s.applyCanvas k).fb = k.fb := by
  rw [State.applyCanvas_eq]
  split <;> rfl

theorem State.applyCanvas_fc (k : Canvas) : (s.applyCanvas k).fc = true := by
  rw [State.applyCanvas_eq]
  split <;> rfl

theorem State.applyCanvas_pc (k : Canvas) : (s.applyCanvas k).pc = s.pc := by
  rw [State.applyCanvas_eq]
  split <;> rfl

theorem State.applyCanvas_fault (k : Canvas) : (s.applyCanvas k).fault = s.fault := by
  rw [State.applyCanvas_eq]
  split <;> rfl

theorem State.applyCanvas_getV_vf (k : Canvas) : (s.applyCanvas k).getV vf = if k.collided = true then 1 else s.getV vf := by
  rw [State.applyCanvas_eq]
  split
  · exact State.getV_setV_same _ vf 1
  · rfl

theorem State.applyCanvas_frame (k : Canvas) : UnchangedBut [.display, .frameChanged, .reg vf] s (s.applyCanvas k) := by
  have hdrawn : UnchangedBut [.display, .frameChanged] s ((s.setFb k.fb).setFc true) :=
    (s.setFb_frame k.fb).comp (State.setFc_frame _ true)
  rw [State.applyCanvas_eq]
  split
  · exact hdrawn.comp (State.setV_frame _ vf 1)
  · exact hdrawn.mono (by simp)

/-! ## LD B and LD [I] (R84, R85) -/

/-- A run of byte writes is complete exactly where its last address is inside memory, in canonical memory or not. -/
theorem State.storeBytes_complete_iff (base : Nat) {xs : List Byte} (hne : xs ≠ []) :
    (s.storeBytes base xs).2 = none ↔ base + xs.length ≤ s.cfg.memSize := by
  induction xs generalizing base s with
  | nil => exact absurd rfl hne
  | cons x xs ih =>
    unfold State.storeBytes State.memWrite
    by_cases hb : base < s.cfg.memSize
    · rw [if_pos hb]
      cases xs with
      | nil => exact iff_of_true rfl hb
      | cons y ys =>
        rw [ih (s.setByte base x) (base + 1) (List.cons_ne_nil y ys), State.setByte_cfg, List.length_cons (a := x)]
        omega
    · rw [if_neg hb, List.length_cons]
      exact iff_of_false (Option.some_ne_none base) (by omega)

theorem State.bcdDigits_complete_iff (b : Byte) :
    (s.storeBytes s.base (bcdDigits b)).2 = none ↔ s.base + 3 ≤ s.cfg.memSize :=
  s.storeBytes_complete_iff s.base (List.cons_ne_nil _ _)

theorem exec_ldB_of_le {x : Reg} (h : s.base + 3 ≤ s.cfg.memSize) :
    exec (.ldB x) s = .next (s.storeBytes s.base (bcdDigits (s.getV x))).1.advance := by
  have hdone := (s.bcdDigits_complete_iff (s.getV x)).mpr h
  change execLdB x s = _
  unfold execLdB
  split <;> simp_all

theorem exec_ldB_of_gt {x : Reg} (h : ¬ s.base + 3 ≤ s.cfg.memSize) :
    exec (.ldB x) s = .next ((s.storeBytes s.base (bcdDigits (s.getV x))).1.raise .memWriteRange s.rangeInfo) := by
  have hcut := mt (s.bcdDigits_complete_iff (s.getV x)).mp h
  change execLdB x s = _
  unfold execLdB
  split <;> simp_all

@[simp] theorem State.length_valuesUpTo (x : Reg) : (s.valuesUpTo x).length = x.toNat + 1 := by
  simp [State.valuesUpTo, regsUpTo]

/-- The registers of a dump or a load are those up to X. -/
theorem mem_regsUpTo {r x : Reg} : r ∈ regsUpTo x ↔ r.toNat ≤ x.toNat := by
  have hr : r.toNat < 16 := r.isLt
  have hx : x.toNat < 16 := x.isLt
  simp only [regsUpTo, List.mem_map, List.mem_range]
  constructor
  · rintro ⟨k, hk, rfl⟩
    rw [BitVec.toNat_ofNat]
    omega
  · intro hle
    exact ⟨r.toNat, by omega, by simp⟩

theorem State.valuesUpTo_complete_iff (x : Reg) :
    (s.storeBytes s.base (s.valuesUpTo x)).2 = none ↔ s.base + x.toNat + 1 ≤ s.cfg.memSize := by
  have hne : s.valuesUpTo x ≠ [] := List.ne_nil_of_length_eq_add_one (s.length_valuesUpTo x)
  rw [s.storeBytes_complete_iff s.base hne, State.length_valuesUpTo, Nat.add_assoc]

theorem exec_storeRegs_of_le {x : Reg} (h : s.base + x.toNat + 1 ≤ s.cfg.memSize) :
    exec (.storeRegs x) s = .next ((s.storeBytes s.base (s.valuesUpTo x)).1.setI (s.indexPast x)).advance := by
  have hdone := (s.valuesUpTo_complete_iff x).mpr h
  change execStoreRegs x s = _
  unfold execStoreRegs
  split <;> simp_all

theorem exec_storeRegs_of_gt {x : Reg} (h : ¬ s.base + x.toNat + 1 ≤ s.cfg.memSize) :
    exec (.storeRegs x) s = .next ((s.storeBytes s.base (s.valuesUpTo x)).1.raise .memWriteRange s.rangeInfo) := by
  have hcut := mt (s.valuesUpTo_complete_iff x).mp h
  change execStoreRegs x s = _
  unfold execStoreRegs
  split <;> simp_all

/-! ## LD VX,[I] (R86) -/

/-- A load of V0..VX is complete exactly where its last address is inside memory. -/
theorem State.loadBytes_regsUpTo_complete_iff (x : Reg) :
    (s.loadBytes s.base (regsUpTo x)).2 = none ↔ s.base + x.toNat + 1 ≤ s.cfg.memSize := by
  obtain ⟨_, _, hcomplete, _⟩ := State.loadBytes_spec s.base (regsUpTo x) s
  rw [hcomplete]
  constructor
  · exact fun hall => hall x (mem_regsUpTo.mpr (Nat.le_refl _))
  · intro h r hr
    have hle : r.toNat ≤ x.toNat := mem_regsUpTo.mp hr
    omega

theorem exec_loadRegs_of_le {x : Reg} (h : s.base + x.toNat + 1 ≤ s.cfg.memSize) :
    exec (.loadRegs x) s = .next ((s.loadBytes s.base (regsUpTo x)).1.setI (s.indexPast x)).advance := by
  have hdone := (s.loadBytes_regsUpTo_complete_iff x).mpr h
  change execLoadRegs x s = _
  unfold execLoadRegs
  split <;> simp_all

theorem exec_loadRegs_of_gt {x : Reg} (h : ¬ s.base + x.toNat + 1 ≤ s.cfg.memSize) :
    exec (.loadRegs x) s = .next ((s.loadBytes s.base (regsUpTo x)).1.raise .memReadRange s.rangeInfo) := by
  have hcut := mt (s.loadBytes_regsUpTo_complete_iff x).mp h
  change execLoadRegs x s = _
  unfold execLoadRegs
  split <;> simp_all

end Sys2Proof.Machine
end

section
/-! Once for all instructions: an instruction is a chain of updates, each of a part that the spec lets it write. Frames and invariants
over all instructions follow from what a single update does. -/

namespace Sys2Proof.Machine

/-! ## Updates and chains of them -/

/-- One update of the state, labelled by the part it writes, with what keeps it within the invariants: a stack within its bound stays
within it, the frame buffer keeps its size, a byte is written inside memory, and a recorded number is at most 65536. -/
inductive Update : Part → State → State → Prop
  | reg (s : State) (r : Reg) (b : Byte) : Update (.reg r) s (s.setV r b)
  | index (s : State) (a : Word) : Update .index s (s.setI a)
  | pc (s : State) (a : Word) : Update .pc s (s.setPc a)
  | stack (s : State) (l : List Word) (h : s.stack.length ≤ s.cfg.stackDepth → l.length ≤ s.cfg.stackDepth) :
      Update .stack s (s.setStack l)
  | delay (s : State) (b : Byte) : Update .delay s (s.setDt b)
  | sound (s : State) (b : Byte) : Update .sound s (s.setSt b)
  | keyWait (s : State) (b : Bool) : Update .keyWait s (s.setKwait b)
  | frameChanged (s : State) (b : Bool) : Update .frameChanged s (s.setFc b)
  | faultRecord (s : State) (code : FaultCode) (n : Nat) (h : s.cfg.legal = true → n ≤ 65536) :
      Update .faultRecord s (s.raise code (infoOf n))
  | display (s : State) (l : List Byte) (h : l.length = s.fb.length) : Update .display s (s.setFb l)
  | byte (s : State) (a : Nat) (x : Byte) (h : a < s.cfg.memSize) : Update (.byte a) s (s.setByte a x)
  | random (s : State) : Update .random s s.afterDraw

/-- A chain of updates, each of a part in `W`. -/
inductive Updates (W : Part → Prop) (s : State) : State → Prop
  | refl : Updates W s s
  | next {t u : State} {p : Part} (h : Updates W s t) (hu : Update p t u) (hp : W p) : Updates W s u

namespace Updates

variable {W : Part → Prop} {s t : State}

theorem advance (h : Updates W s t) (hpc : W .pc) : Updates W s t.advance := h.next (.pc t _) hpc

theorem skipIf (h : Updates W s t) (hpc : W .pc) (c : Bool) : Updates W s (t.skipIf c) := by
  rw [State.skipIf_eq]
  exact h.next (.pc t _) hpc

theorem storeBytes (h : Updates W s t) (hW : ∀ a, W (.byte a)) (base : Nat) (xs : List Byte) :
    Updates W s (t.storeBytes base xs).1 := by
  induction xs generalizing base t with
  | nil => exact h
  | cons x xs ih =>
    unfold State.storeBytes State.memWrite
    by_cases hb : base < t.cfg.memSize
    · rw [if_pos hb]
      exact ih (h.next (.byte t base x hb) (hW base)) (base + 1)
    · rw [if_neg hb]
      exact h

theorem loadBytes (h : Updates W s t) {rs : List Reg} (hW : ∀ r ∈ rs, W (.reg r)) (base : Nat) :
    Updates W s (t.loadBytes base rs).1 := by
  induction rs generalizing t with
  | nil => exact h
  | cons r rs ih =>
    unfold State.loadBytes State.memRead
    by_cases hb : base + r.toNat < t.cfg.memSize
    · rw [if_pos hb]
      exact ih (h.next (.reg t r _) (hW r List.mem_cons_self)) fun q hq => hW q (List.mem_cons_of_mem r hq)
    · rw [if_neg hb]
      exact h

/-! ## What a chain keeps -/

/-- A field that no update of a part in `W` changes is the same after the chain. -/
theorem keeps {α : Type} {f : State → α} (hf : ∀ p, W p → ∀ t u, Update p t u → f u = f t) (h : Updates W s t) :
    f t = f s := by
  induction h with
  | refl => rfl
  | next _ hu hp ih => exact (hf _ hp _ _ hu).trans ih

/-- A property that every update keeps is kept by the chain. -/
theorem preserves {P : State → Prop} (hP : ∀ p t u, Update p t u → P t → P u) (h : Updates W s t) (hs : P s) : P t := by
  induction h with
  | refl => exact hs
  | next _ hu _ ih => exact hP _ _ _ hu ih

variable (h : Updates W s t)
include h

theorem cfg_eq : t.cfg = s.cfg := h.keeps fun _ _ _ _ hu => by cases hu <;> rfl

theorem keys_eq : t.keys = s.keys := h.keeps fun _ _ _ _ hu => by cases hu <;> rfl

theorem finished_eq : t.finished = s.finished := h.keeps fun _ _ _ _ hu => by cases hu <;> rfl

theorem diag_eq : t.diag = s.diag := h.keeps fun _ _ _ _ hu => by cases hu <;> rfl

theorem getV_eq {r : Reg} (hW : ¬ W (.reg r)) : t.getV r = s.getV r := h.keeps (f := (State.getV · r)) fun _ hp _ _ hu => by
  cases hu with
  | reg _ q b => exact State.getV_setV_ne _ b fun hrq => hW (hrq ▸ hp)
  | _ => rfl

theorem i_eq (hW : ¬ W .index) : t.i = s.i := h.keeps fun _ hp _ _ hu => by
  cases hu with
  | index => exact absurd hp hW
  | _ => rfl

theorem pc_eq (hW : ¬ W .pc) : t.pc = s.pc := h.keeps fun _ hp _ _ hu => by
  cases hu with
  | pc => exact absurd hp hW
  | _ => rfl

theorem stack_eq (hW : ¬ W .stack) : t.stack = s.stack := h.keeps fun _ hp _ _ hu => by
  cases hu with
  | stack => exact absurd hp hW
  | _ => rfl

theorem dt_eq (hW : ¬ W .delay) : t.dt = s.dt := h.keeps fun _ hp _ _ hu => by
  cases hu with
  | delay => exact absurd hp hW
  | _ => rfl

theorem st_eq (hW : ¬ W .sound) : t.st = s.st := h.keeps fun _ hp _ _ hu => by
  cases hu with
  | sound => exact absurd hp hW
  | _ => rfl

theorem kwait_eq (hW : ¬ W .keyWait) : t.kwait = s.kwait := h.keeps fun _ hp _ _ hu => by
  cases hu with
  | keyWait => exact absurd hp hW
  | _ => rfl

theorem fc_eq (hW : ¬ W .frameChanged) : t.fc = s.fc := h.keeps fun _ hp _ _ hu => by
  cases hu with
  | frameChanged => exact absurd hp hW
  | _ => rfl

theorem fault_eq (hW : ¬ W .faultRecord) : t.fault = s.fault := h.keeps fun _ hp _ _ hu => by
  cases hu with
  | faultRecord => exact absurd hp hW
  | _ => rfl

theorem fb_eq (hW : ¬ W .display) : t.fb = s.fb := h.keeps fun _ hp _ _ hu => by
  cases hu with
  | display => exact absurd hp hW
  | _ => rfl

theorem mem_eq (hW : ∀ a, ¬ W (.byte a)) : t.mem = s.mem := h.keeps fun _ hp _ _ hu => by
  cases hu with
  | byte v a => exact absurd hp (hW a)
  | _ => rfl

theorem random_eq (hW : ¬ W .random) : t.rndIn = s.rndIn ∧ t.rndDraws = s.rndDraws :=
  Prod.mk.inj <| h.keeps (f := fun v => (v.rndIn, v.rndDraws)) fun _ hp _ _ hu => by
    cases hu with
    | random => exact absurd hp hW
    | _ => rfl

end Updates

/-! ## The parts an instruction may write (R19, R20, R22, R24–R28, R31, R35) -/

/-- The writers of each part. Any instruction may write PC and the fault record. -/
def Writes (i : Instr) : Part → Prop
  | .reg r => r ∈ destinations i ∨ r = vf ∧ writesFlag i = true
  | .index =>
    (∃ nnn, i = .ldI nnn) ∨ (∃ x, i = .addI x) ∨ (∃ x, i = .ldF x) ∨ (∃ x, i = .storeRegs x) ∨ ∃ x, i = .loadRegs x
  | .pc => True
  | .stack => i = .ret ∨ ∃ nnn, i = .call nnn
  | .delay => ∃ x, i = .ldDtVx x
  | .sound => ∃ x, i = .ldStVx x
  | .keyWait => ∃ x, i = .ldVxK x
  | .frameChanged => ∃ x y n, i = .drw x y n
  | .faultRecord => True
  | .display => i = .cls ∨ ∃ x y n, i = .drw x y n
  | .byte _ => (∃ x, i = .ldB x) ∨ ∃ x, i = .storeRegs x
  | .random => ∃ x nn, i = .rnd x nn
  | .key _ | .finished | .diag | .config => False

/-- A byte may be recorded by a fault. -/
theorem Update.raiseByte (s : State) (code : FaultCode) (b : Byte) : Update .faultRecord s (s.raise code (infoOf b.toNat)) :=
  .faultRecord s code b.toNat fun _ => by
    have hb : b.toNat < 256 := b.isLt
    omega

/-- The memory of a legal block (R5). -/
theorem memSize_bounds_of_legal {c : Config} (h : c.legal = true) : 514 ≤ c.memSize ∧ c.memSize ≤ 65536 := by
  simp only [Config.legal, Config.memSizeLegal, Bool.and_eq_true, decide_eq_true_eq] at h
  obtain ⟨⟨⟨⟨hsize, _⟩, _⟩, _⟩, _⟩ := h
  exact hsize

theorem State.rangeInfo_le {s : State} (h : s.cfg.legal = true) : max s.base s.cfg.memSize ≤ 65536 :=
  Nat.max_le.mpr ⟨Nat.le_of_lt s.i.isLt, (memSize_bounds_of_legal h).2⟩

section
variable {W : Part → Prop} {s : State} {x : Reg}

/-- The write-back of a blit writes the frame buffer, FC and, on a collision, VF. -/
theorem Updates.applyCanvas (hfb : W .display) (hfc : W .frameChanged) (hvf : W (.reg vf)) {k : Canvas}
    (hk : k.fb.length = s.fb.length) : Updates W s (s.applyCanvas k) := by
  have hdrawn : Updates W s ((s.setFb k.fb).setFc true) := (refl.next (.display s _ hk) hfb).next (.frameChanged _ _) hfc
  rw [State.applyCanvas_eq]
  split
  · exact hdrawn.next (.reg _ vf 1) hvf
  · exact hdrawn

/-- The two writes of an ALU instruction with a flag. -/
theorem Updates.writeThenFlag (hx : W (.reg x)) (hvf : W (.reg vf)) (r f : Byte) :
    Updates W s (s.writeThenFlag x r f) := (refl.next (.reg s x r) hx).next (.reg _ vf f) hvf

theorem Updates.writeShift (hx : W (.reg x)) (hvf : W (.reg vf)) (r f : Byte) :
    Updates W s (s.writeShift x r f) := by
  unfold State.writeShift
  split
  · exact (refl.next (.reg s vf f) hvf).next (.reg _ x r) hx
  · exact writeThenFlag hx hvf r f

end

/-- What an instruction answers is a chain of updates of the parts it may write. -/
theorem exec_updates {i : Instr} {s t : State} (h : exec i s = .next t) : Updates (Writes i) s t := by
  have hpc : Writes i .pc := trivial
  have hfault : Writes i .faultRecord := trivial
  cases i with
  | cls =>
    cases h
    exact (Updates.refl.next (.display s _ (clearFb_length s.fb)) (.inl rfl)).advance hpc
  | ret =>
    cases hstack : s.stack with
    | nil =>
      cases (exec_ret_of_nil s hstack).symm.trans h
      exact Updates.refl.next (.faultRecord s _ 0 fun _ => Nat.zero_le _) hfault
    | cons r rest =>
      cases (exec_ret_of_cons s hstack).symm.trans h
      have hpop : s.stack.length ≤ s.cfg.stackDepth → rest.length ≤ s.cfg.stackDepth := by
        rw [hstack, List.length_cons]
        omega
      exact (Updates.refl.next (.stack s rest hpop) (.inl rfl)).next (.pc _ _) hpc
  | jp nnn | jpV0 nnn =>
    cases h
    exact Updates.refl.next (.pc s _) hpc
  | call nnn =>
    by_cases hroom : s.stack.length < s.cfg.stackDepth
    · cases (exec_call_of_lt s hroom).symm.trans h
      exact (Updates.refl.next (.stack s (s.pc :: s.stack) fun _ => hroom) (.inr ⟨nnn, rfl⟩)).next (.pc _ _) hpc
    · cases (exec_call_of_full s (Nat.le_of_not_lt hroom)).symm.trans h
      exact Updates.refl.next (.faultRecord s _ 0 fun _ => Nat.zero_le _) hfault
  | seImm | sneImm | seReg | sneReg =>
    cases h
    exact Updates.refl.skipIf hpc _
  | ldImm x | addImm x | ldReg x | ldVxDt x =>
    cases h
    exact (Updates.refl.next (.reg s x _) (.inl List.mem_cons_self)).advance hpc
  | orReg x | andReg x | xorReg x | addReg x | sub x | subn x =>
    cases h
    exact (Updates.writeThenFlag (.inl List.mem_cons_self) (.inr ⟨rfl, rfl⟩) _ _).advance hpc
  | shr x | shl x =>
    cases h
    exact (Updates.writeShift (.inl List.mem_cons_self) (.inr ⟨rfl, rfl⟩) _ _).advance hpc
  | ldI nnn =>
    cases h
    exact (Updates.refl.next (.index s _) (.inl ⟨nnn, rfl⟩)).advance hpc
  | rnd x nn =>
    cases h
    exact ((Updates.refl.next (.random s) ⟨x, nn, rfl⟩).next (.reg _ x _) (.inl List.mem_cons_self)).advance hpc
  | drw x y n =>
    by_cases hrange : s.base + n.toNat ≤ s.cfg.memSize
    · cases (exec_drw_of_le s hrange).symm.trans h
      exact (Updates.applyCanvas (.inr ⟨x, y, n, rfl⟩) ⟨x, y, n, rfl⟩ (.inr ⟨rfl, rfl⟩) (blit_length _ _ _ _ _)).advance hpc
    · cases (exec_drw_of_gt s hrange).symm.trans h
      exact Updates.refl.next (.faultRecord s _ _ State.rangeInfo_le) hfault
  | skp x =>
    by_cases hkey : 15 < (s.getV x).toNat
    · cases (exec_skp_of_gt s hkey).symm.trans h
      exact Updates.refl.next (.raiseByte s _ _) hfault
    · cases (exec_skp_of_eq s (k := ⟨(s.getV x).toNat, by omega⟩) rfl).symm.trans h
      exact Updates.refl.skipIf hpc _
  | sknp x =>
    by_cases hkey : 15 < (s.getV x).toNat
    · cases (exec_sknp_of_gt s hkey).symm.trans h
      exact Updates.refl.next (.raiseByte s _ _) hfault
    · cases (exec_sknp_of_eq s (k := ⟨(s.getV x).toNat, by omega⟩) rfl).symm.trans h
      exact Updates.refl.skipIf hpc _
  | ldVxK x =>
    change execLdVxK x s = _ at h
    unfold execLdVxK at h
    split at h <;> cases h
    · exact Updates.refl
    · exact (Updates.refl.next (.reg s x _) (.inl List.mem_cons_self)).next (.keyWait _ true) ⟨x, rfl⟩
    · exact Updates.refl
    · exact (Updates.refl.next (.keyWait s false) ⟨x, rfl⟩).advance hpc
  | ldDtVx x =>
    cases h
    exact (Updates.refl.next (.delay s _) ⟨x, rfl⟩).advance hpc
  | ldStVx x =>
    cases h
    exact (Updates.refl.next (.sound s _) ⟨x, rfl⟩).advance hpc
  | addI x =>
    cases h
    exact (Updates.refl.next (.index s _) (.inr (.inl ⟨x, rfl⟩))).advance hpc
  | ldF x =>
    by_cases hdigit : 15 < (s.getV x).toNat
    · cases (exec_ldF_of_gt s hdigit).symm.trans h
      exact Updates.refl.next (.raiseByte s _ _) hfault
    · cases (exec_ldF_of_le s (Nat.le_of_not_lt hdigit)).symm.trans h
      exact (Updates.refl.next (.index s _) (.inr (.inr (.inl ⟨x, rfl⟩)))).advance hpc
  | ldB x =>
    have hstore := Updates.refl.storeBytes (W := Writes (.ldB x)) (s := s) (fun _ => .inl ⟨x, rfl⟩) s.base (bcdDigits (s.getV x))
    by_cases hrange : s.base + 3 ≤ s.cfg.memSize
    · cases (exec_ldB_of_le s hrange).symm.trans h
      exact hstore.advance hpc
    · cases (exec_ldB_of_gt s hrange).symm.trans h
      exact hstore.next (.faultRecord _ _ _ fun hlegal => State.rangeInfo_le (hstore.cfg_eq ▸ hlegal)) hfault
  | storeRegs x =>
    have hstore := Updates.refl.storeBytes (W := Writes (.storeRegs x)) (s := s) (fun _ => .inr ⟨x, rfl⟩) s.base (s.valuesUpTo x)
    by_cases hrange : s.base + x.toNat + 1 ≤ s.cfg.memSize
    · cases (exec_storeRegs_of_le s hrange).symm.trans h
      exact (hstore.next (.index _ _) (.inr (.inr (.inr (.inl ⟨x, rfl⟩))))).advance hpc
    · cases (exec_storeRegs_of_gt s hrange).symm.trans h
      exact hstore.next (.faultRecord _ _ _ fun hlegal => State.rangeInfo_le (hstore.cfg_eq ▸ hlegal)) hfault
  | loadRegs x =>
    have hload := Updates.refl.loadBytes (W := Writes (.loadRegs x)) (s := s) (rs := regsUpTo x) (fun _ hr => .inl hr) s.base
    by_cases hrange : s.base + x.toNat + 1 ≤ s.cfg.memSize
    · cases (exec_loadRegs_of_le s hrange).symm.trans h
      exact (hload.next (.index _ _) (.inr (.inr (.inr (.inr ⟨x, rfl⟩))))).advance hpc
    · cases (exec_loadRegs_of_gt s hrange).symm.trans h
      exact hload.next (.faultRecord _ _ _ fun hlegal => State.rangeInfo_le (hload.cfg_eq ▸ hlegal)) hfault

/-! ## The statements about all instructions -/

/-- Settles O51: no part changes but those its updates write. -/
theorem eachPartHasOnlyItsWriters : Obligations.EachPartHasOnlyItsWriters := by
  intro i s t h
  have hup : Updates (Writes i) s t := exec_updates h
  refine ⟨fun hB hStore a => ?memory, fun hret hcall => hup.stack_eq ?stack, fun hcls hdrw => hup.fb_eq ?display,
    fun hldI haddI hldF hstore hload => hup.i_eq ?index, fun hdt => hup.dt_eq ?delay, fun hst => hup.st_eq ?sound,
    fun hk => hup.kwait_eq ?keyWait, fun hdrw => hup.fc_eq ?frameChanged, fun hrnd => hup.random_eq ?random,
    hup.keys_eq, hup.cfg_eq, hup.finished_eq, hup.diag_eq⟩
  case memory =>
    have hmem : t.mem = s.mem := hup.mem_eq fun a hW => by simp_all [Writes]
    exact State.memRead_congr hup.cfg_eq hmem a
  all_goals
    intro hW
    simp_all [Writes]

/-- Settles O52: no register changes but a destination, or VF for an instruction that writes the flag. -/
theorem registersChangeOnlyAsDestinationOrFlag : Obligations.RegistersChangeOnlyAsDestinationOrFlag := by
  intro i s t r h hdest hflag
  refine (exec_updates h).getV_eq fun hW => ?_
  rcases hW with hmem | ⟨hvf, hwrites⟩
  · exact hdest hmem
  · exact Bool.false_ne_true ((hflag hvf).symm.trans hwrites)

end Sys2Proof.Machine
end

section
/-! The statements about faults (60_exceptions.md R105, R106), with the case distinction they rest on: an instruction raises the fault
the table gives, and no other. -/

namespace Sys2Proof.Machine

variable (s : State)

/-! ## The fault of an instruction (R105) -/

/-- The instruction answers a next state, the fault record as it was. -/
def ExecClean (i : Instr) (s : State) : Prop := ∃ t, exec i s = .next t ∧ t.fault = s.fault

/-- The instruction raises the fault, from a state whose PC is still p. -/
def ExecRaises (i : Instr) (s : State) (code : FaultCode) (info : Nat) : Prop :=
  ∃ u : State, exec i s = .next (u.raise code (infoOf info)) ∧ u.pc = s.pc

/-- Byte writes and register loads, however far they get, are updates of bytes and of registers alone. -/
theorem State.storeBytes_updates (base : Nat) (xs : List Byte) :
    Updates (fun p => ∃ a, p = .byte a) s (s.storeBytes base xs).1 := Updates.refl.storeBytes (fun a => ⟨a, rfl⟩) base xs

theorem State.loadBytes_updates (base : Nat) (rs : List Reg) :
    Updates (fun p => ∃ r, p = .reg r) s (s.loadBytes base rs).1 := Updates.refl.loadBytes (fun r _ => ⟨r, rfl⟩) base

theorem State.writeShift_fault (x : Reg) (r f : Byte) : (s.writeShift x r f).fault = s.fault := by
  unfold State.writeShift
  split <;> rfl

theorem State.skipIf_fault (c : Bool) : (s.skipIf c).fault = s.fault := by rw [State.skipIf_eq]; rfl

theorem exec_ldVxK_clean (x : Reg) : ExecClean (.ldVxK x) s := by
  change ∃ t, execLdVxK x s = .next t ∧ _
  unfold execLdVxK
  split <;> exact ⟨_, rfl, rfl⟩

/-- Every instruction does what the table of R105 says: it raises the fault of its row, or none. -/
theorem exec_clean_or_raises (i : Instr) :
    (faultOf i s = none ∧ ExecClean i s) ∨ ∃ code info, faultOf i s = some (code, info) ∧ ExecRaises i s code info := by
  cases i with
  | cls | jp | jpV0 | ldImm | addImm | ldReg | orReg | andReg | xorReg | addReg | sub | subn | ldI | addI | rnd
  | ldVxDt | ldDtVx | ldStVx => exact .inl ⟨rfl, _, rfl, rfl⟩
  | seImm | sneImm | seReg | sneReg => exact .inl ⟨rfl, _, rfl, s.skipIf_fault _⟩
  | shr x | shl x => exact .inl ⟨rfl, _, rfl, s.writeShift_fault x _ _⟩
  | ldVxK x => exact .inl ⟨rfl, exec_ldVxK_clean s x⟩
  | ret =>
    cases hstack : s.stack with
    | nil => exact .inr ⟨_, _, if_pos hstack, s, exec_ret_of_nil s hstack, rfl⟩
    | cons r rest => exact .inl ⟨if_neg (hstack ▸ List.cons_ne_nil r rest), _, exec_ret_of_cons s hstack, rfl⟩
  | call nnn =>
    by_cases hroom : s.stack.length < s.cfg.stackDepth
    · exact .inl ⟨if_pos hroom, _, exec_call_of_lt s hroom, rfl⟩
    · exact .inr ⟨_, _, if_neg hroom, s, exec_call_of_full s (Nat.le_of_not_lt hroom), rfl⟩
  | skp x =>
    by_cases hkey : 15 < (s.getV x).toNat
    · exact .inr ⟨_, _, if_pos hkey, s, exec_skp_of_gt s hkey, rfl⟩
    · exact .inl ⟨if_neg hkey, _, exec_skp_of_eq s (k := ⟨(s.getV x).toNat, by omega⟩) rfl, s.skipIf_fault _⟩
  | sknp x =>
    by_cases hkey : 15 < (s.getV x).toNat
    · exact .inr ⟨_, _, if_pos hkey, s, exec_sknp_of_gt s hkey, rfl⟩
    · exact .inl ⟨if_neg hkey, _, exec_sknp_of_eq s (k := ⟨(s.getV x).toNat, by omega⟩) rfl, s.skipIf_fault _⟩
  | ldF x =>
    by_cases hdigit : 15 < (s.getV x).toNat
    · exact .inr ⟨_, _, if_pos hdigit, s, exec_ldF_of_gt s hdigit, rfl⟩
    · exact .inl ⟨if_neg hdigit, _, exec_ldF_of_le s (Nat.le_of_not_lt hdigit), rfl⟩
  | ldB x =>
    have hstore := s.storeBytes_updates s.base (bcdDigits (s.getV x))
    by_cases hrange : s.base + 3 ≤ s.cfg.memSize
    · exact .inl ⟨if_pos hrange, _, exec_ldB_of_le s hrange, hstore.fault_eq (by simp)⟩
    · exact .inr ⟨_, _, if_neg hrange, _, exec_ldB_of_gt s hrange, hstore.pc_eq (by simp)⟩
  | storeRegs x =>
    have hstore := s.storeBytes_updates s.base (s.valuesUpTo x)
    by_cases hrange : s.base + x.toNat + 1 ≤ s.cfg.memSize
    · exact .inl ⟨if_pos hrange, _, exec_storeRegs_of_le s hrange, hstore.fault_eq (by simp)⟩
    · exact .inr ⟨_, _, if_neg hrange, _, exec_storeRegs_of_gt s hrange, hstore.pc_eq (by simp)⟩
  | loadRegs x =>
    have hload := s.loadBytes_updates s.base (regsUpTo x)
    by_cases hrange : s.base + x.toNat + 1 ≤ s.cfg.memSize
    · exact .inl ⟨if_pos hrange, _, exec_loadRegs_of_le s hrange, hload.fault_eq (by simp)⟩
    · exact .inr ⟨_, _, if_neg hrange, _, exec_loadRegs_of_gt s hrange, hload.pc_eq (by simp)⟩
  | drw x y n =>
    by_cases hrange : s.base + n.toNat ≤ s.cfg.memSize
    · exact .inl ⟨if_pos hrange, _, exec_drw_of_le s hrange, s.applyCanvas_fault _⟩
    · exact .inr ⟨_, _, if_neg hrange, s, exec_drw_of_gt s hrange, rfl⟩

/-- The table's numbers are at most 65536: 0, a byte, or the first address past memory. -/
theorem faultOf_info_le {i : Instr} {code : FaultCode} {info : Nat} (hlegal : s.cfg.legal = true)
    (h : faultOf i s = some (code, info)) : info ≤ 65536 := by
  have hmax : max s.i.toNat s.cfg.memSize ≤ 65536 := State.rangeInfo_le hlegal
  cases i with
  | ret | call | ldB | storeRegs | loadRegs | drw =>
    simp only [faultOf] at h
    split at h <;> cases h
    omega
  | skp x | sknp x | ldF x =>
    have hx : (s.getV x).toNat < 256 := (s.getV x).isLt
    simp only [faultOf] at h
    split at h <;> cases h
    omega
  | _ => cases h

/-- FAULT_INFO holds every number of at most 65536. -/
theorem infoOf_toNat {n : Nat} (h : n ≤ 65536) : (infoOf n).toNat = n := by
  rw [infoOf, BitVec.toNat_ofNat, Nat.mod_eq_of_lt (by omega)]

/-- A raise records its code, the PC and its number. -/
theorem State.raise_records (code : FaultCode) {n : Nat} (h : n ≤ 65536) : Records (s.raise code (infoOf n)) code s.pc n :=
  ⟨rfl, rfl, infoOf_toNat h⟩

/-- Settles O41: where the table gives no fault the record stays clear, else the raise records what the table gives. -/
theorem instructionFaultsAreExactlyTheTable : Obligations.InstructionFaultsAreExactlyTheTable := by
  intro i s hlegal hclean
  rcases exec_clean_or_raises s i with ⟨hnone, t, hexec, hfault⟩ | ⟨code, info, hsome, u, hexec, hpc⟩
  · exact ⟨t, hexec, fun _ => hfault.trans hclean, fun _ _ h => nomatch hnone.symm.trans h⟩
  · refine ⟨_, hexec, fun hnone => (nomatch hsome.symm.trans hnone), fun c n h => ?_⟩
    cases hsome.symm.trans h
    exact hpc ▸ u.raise_records code (faultOf_info_le s hlegal hsome)

/-! ## The tick -/

/-- Every instruction answers a next state. -/
theorem exists_exec_eq_next (i : Instr) : ∃ t, exec i s = .next t := by
  rcases exec_clean_or_raises s i with ⟨_, t, hexec, _⟩ | ⟨_, _, _, u, hexec, _⟩
  · exact ⟨t, hexec⟩
  · exact ⟨_, hexec⟩

/-- Settles O44: a tick stands still, raises FETCH_RANGE, executes an instruction or meets an unknown word. -/
theorem stepAlwaysAnswersNext : Obligations.StepAlwaysAnswersNext := by
  intro s
  rcases step_cases s with ⟨_, hstep⟩ | ⟨_, _, hstep⟩ | ⟨_, w, _, hstep⟩
  · exact ⟨_, hstep⟩
  · exact ⟨_, hstep⟩
  · rcases runWord_cases s.tickBegin w with ⟨i, _, hrun⟩ | ⟨_, _, hrun⟩
    · obtain ⟨t, hexec⟩ := exists_exec_eq_next s.tickBegin i
      exact ⟨_, hstep.trans (hrun.trans (tickEnd_eq_next.mpr ⟨t, hexec, rfl⟩))⟩
    · rcases execUnknown_cases s.tickBegin _ with ⟨_, hunknown⟩ | ⟨_, hunknown⟩ <;>
        exact ⟨_, hstep.trans (hrun.trans (tickEnd_eq_next.mpr ⟨_, hunknown, rfl⟩))⟩

/-- Settles O42: the failed fetch raises at PC, recording PC. -/
theorem fetchFaultRecordsPc : Obligations.FetchFaultRecordsPc := by
  intro s hclean hpc
  have hlt : s.pc.toNat < 65536 := s.pc.isLt
  exact ⟨_, step_of_fetch_none s hclean (s.fetch16_eq_none.mpr hpc), s.tickBegin.raise_records .fetchRange (by omega)⟩

/-! ## Runs -/

/-- A run of n + 1 ticks is a tick and a run of n. -/
theorem run_succ {s t : State} (n : Nat) (h : step s = .next t) :
    Host.Core.run Sys2Proof.core (n + 1) s = Host.Core.run Sys2Proof.core n t := by
  have hstep : Sys2Proof.core.step s = .next t := h
  simp only [Host.Core.run, hstep]

/-- Settles O43: a tick of a faulted block answers the same state, so any number of them does. -/
theorem faultedBlockNeverChanges : Obligations.FaultedBlockNeverChanges := by
  intro s n hfault
  induction n with
  | zero => rfl
  | succ n ih => exact (run_succ n (step_of_fault s hfault)).trans ih

end Sys2Proof.Machine
end

section
/-! The statements about one tick (30_encoding.md R54, R57), with the case distinction they rest on: a tick of a clean block executes the
instruction it fetches and writes FINISHED, or it fetches none and raises a fault or reports the unknown word. -/

namespace Sys2Proof.Machine

/-! ## The fetched instruction -/

/-- The word at PC is one instruction at most. -/
theorem State.fetches_unique {s : State} {i j : Instr} (hi : s.fetches i) (hj : s.fetches j) : i = j := by
  obtain ⟨w, hw, hdecode⟩ := hi
  obtain ⟨v, hv, hdecode'⟩ := hj
  cases hw.symm.trans hv
  exact Decoded.instr.inj (hdecode.symm.trans hdecode')

/-- The fetched instruction depends on PC, memory and the parameters alone. -/
theorem State.fetches_congr {s t : State} {i : Instr} (hcfg : t.cfg = s.cfg) (hmem : t.mem = s.mem) (hpc : t.pc = s.pc)
    (h : s.fetches i) : t.fetches i := by
  obtain ⟨w, hw, hdecode⟩ := h
  exact ⟨w, by rw [hpc, State.fetch16_congr hcfg hmem, hw], hdecode⟩

theorem isSelfJump_iff {i : Instr} {p : Word} : isSelfJump i p = true ↔ ∃ nnn, i = .jp nnn ∧ nnn.toNat = p.toNat := by
  cases i with
  | jp nnn => simp [isSelfJump, ← zext16_toNat nnn, BitVec.toNat_inj]
  | _ => simp [isSelfJump]

/-! ## What a tick answers (R54, R57) -/

/-- The state an unknown word leaves under the policy nop. -/
def State.afterUnknown (s : State) (w : Word) : State :=
  (({ s.tickBegin with diag := some w } : State).advance).setFinished false

variable {s t : State}

/-- Everything a tick of a clean block can answer. -/
theorem step_eq_next_cases (hclean : s.clean) (h : step s = .next t) :
    (∃ i u f, s.fetches i ∧ exec i s.tickBegin = .next u ∧ t = u.setFinished f ∧ (u.clean → f = isSelfJump i s.pc)) ∨
    ((∀ i, ¬ s.fetches i) ∧
      ((∃ code n, n ≤ 65536 ∧ t = s.tickBegin.raise code (infoOf n)) ∨ ∃ w, t = s.afterUnknown w)) := by
  rcases step_cases s with ⟨hfault, _⟩ | ⟨_, hnone, hstep⟩ | ⟨_, w, hfetch, hstep⟩
  · exact absurd hclean hfault
  · have hlt : s.pc.toNat < 65536 := s.pc.isLt
    cases hstep.symm.trans h
    exact .inr ⟨fun i ⟨_, hw, _⟩ => (nomatch hnone.symm.trans hw), .inl ⟨_, _, by omega, rfl⟩⟩
  · rcases runWord_cases s.tickBegin w with ⟨i, hdecode, hrun⟩ | ⟨v, hdecode, hrun⟩
    · obtain ⟨u, hexec, rfl⟩ := tickEnd_eq_next.mp (hrun.symm.trans (hstep.symm.trans h))
      have hfetches : s.fetches i := ⟨w, hfetch, hdecode⟩
      by_cases hu : u.fault.isSome = true
      · exact .inl ⟨i, u, u.finished, hfetches, hexec, if_pos hu, fun hnone => absurd hu (by simp [hnone])⟩
      · exact .inl ⟨i, u, _, hfetches, hexec, if_neg hu, fun _ => rfl⟩
    · have hlt : v.toNat < 65536 := v.isLt
      refine .inr ⟨fun i ⟨_, hw, hdecode'⟩ => ?_, ?_⟩
      · cases hfetch.symm.trans hw
        exact nomatch hdecode.symm.trans hdecode'
      · obtain ⟨u, hunknown, rfl⟩ := tickEnd_eq_next.mp (hrun.symm.trans (hstep.symm.trans h))
        rcases execUnknown_cases s.tickBegin v with ⟨_, hnop⟩ | ⟨_, hfault⟩
        · cases hnop.symm.trans hunknown
          exact .inr ⟨v, if_neg (by simp [hclean])⟩
        · cases hfault.symm.trans hunknown
          exact .inl ⟨_, _, by omega, if_pos rfl⟩

/-! ## The statements about a tick -/

/-- Settles O5: the start of the tick has its frame, and the end writes FINISHED exactly on a state without a fault. -/
theorem stepRunsTheDecodedInstruction : Obligations.StepRunsTheDecodedInstruction := by
  intro s i hclean hfetch
  refine ⟨s.tickBegin, decay_toNat s.dt, decay_toNat s.st, rfl, rfl, s.tickBegin_frame,
    fun t hexec => ⟨fun hfault => ?_, fun ht => ?_⟩⟩
  · have hsome : t.fault.isSome = true := Option.isSome_iff_ne_none.mpr hfault
    rw [step_of_fetches s hclean hfetch, hexec, tickEnd, if_pos hsome]
  · exact ⟨_, step_of_fetches_of_exec s hclean hfetch hexec ht, t.setFinished_frame _, isSelfJump_iff⟩

theorem State.diag_frame (s : State) (d : Option Word) : UnchangedBut [.diag] s { s with diag := d } := by
  intro p hp
  cases p with
  | diag => exact absurd List.mem_cons_self hp
  | faultRecord => exact ⟨rfl, rfl, rfl⟩
  | random => exact ⟨rfl, rfl⟩
  | _ => rfl

theorem State.afterUnknown_frame (s : State) (w : Word) :
    UnchangedBut [.pc, .diag, .frameChanged, .finished, .delay, .sound] s (s.afterUnknown w) :=
  (((s.tickBegin_frame.comp (State.diag_frame _ _)).comp (State.advance_frame _)).comp (State.setFinished_frame _ _)).mono
    (by simp)

/-- Settles O6: under nop the tick ends after the event and the advance, under fault in the raise. -/
theorem unknownWordFollowsThePolicy : Obligations.UnknownWordFollowsThePolicy := by
  intro s w hclean hfetch hunknown
  have hrun : step s = tickEnd false (execUnknown w s.tickBegin) := by
    simp only [step_of_fetch s hclean hfetch, runWord, hunknown]
  refine ⟨fun hnop => ⟨s.afterUnknown w, ?_, ?_, rfl, rfl, rfl, decay_toNat s.dt, decay_toNat s.st, s.afterUnknown_frame w⟩,
    fun hfault => ⟨s.tickBegin.raise .illegalOpcode (infoOf w.toNat), ?_, ?_⟩⟩
  · have hexec : execUnknown w s.tickBegin = .next ({ s.tickBegin with diag := some w } : State).advance := by
      simp only [execUnknown, State.tickBegin_cfg, hnop]
    exact hrun.trans (tickEnd_eq_next.mpr ⟨_, hexec, (if_neg (by simp [hclean])).symm⟩)
  · exact pcPast_add s.pc 2
  · have hexec : execUnknown w s.tickBegin = .next (s.tickBegin.raise .illegalOpcode (infoOf w.toNat)) := by
      simp only [execUnknown, State.tickBegin_cfg, hfault]
    exact hrun.trans (tickEnd_eq_next.mpr ⟨_, hexec, (if_pos rfl).symm⟩)
  · have hlt : w.toNat < 65536 := w.isLt
    exact s.tickBegin.raise_records .illegalOpcode (by omega)

/-- Settles O36: the timers have decayed before the instruction, and no instruction but the two writers changes them. -/
theorem timersDecayOncePerTick : Obligations.TimersDecayOncePerTick := by
  intro s t hclean hstep
  rcases step_eq_next_cases hclean hstep with ⟨i, u, f, hfetch, hexec, rfl, _⟩ | ⟨hnone, hend⟩
  · have hup : Updates (Writes i) s.tickBegin u := exec_updates hexec
    refine ⟨fun hdt => ?_, fun x hx => ?_, fun hst => ?_, fun x hx => ?_⟩
    · have hkept : u.dt = s.tickBegin.dt := hup.dt_eq fun ⟨x, hx⟩ => hdt x (hx ▸ hfetch)
      exact hkept ▸ decay_toNat s.dt
    · cases State.fetches_unique hfetch hx
      cases hexec
      rfl
    · have hkept : u.st = s.tickBegin.st := hup.st_eq fun ⟨x, hx⟩ => hst x (hx ▸ hfetch)
      exact hkept ▸ decay_toNat s.st
    · cases State.fetches_unique hfetch hx
      cases hexec
      rfl
  · have hdecayed : t.dt = decay s.dt ∧ t.st = decay s.st := by
      rcases hend with ⟨_, _, _, rfl⟩ | ⟨_, rfl⟩ <;> exact ⟨rfl, rfl⟩
    exact ⟨fun _ => hdecayed.1 ▸ decay_toNat s.dt, fun x hx => absurd hx (hnone _),
      fun _ => hdecayed.2 ▸ decay_toNat s.st, fun x hx => absurd hx (hnone _)⟩

/-- DRW that does not fault sets FC. -/
theorem fc_of_exec_drw {x y : Reg} {n : Nibble} (hexec : exec (.drw x y n) s = .next t) (ht : t.clean) : t.fc = true := by
  by_cases hrange : s.base + n.toNat ≤ s.cfg.memSize
  · cases (exec_drw_of_le s hrange).symm.trans hexec
    exact State.applyCanvas_fc s _
  · cases (exec_drw_of_gt s hrange).symm.trans hexec
    exact nomatch ht

/-- Settles O49: the start of the tick clears FC, and only a DRW that does not fault sets it. -/
theorem hasDrawnExactlyAfterDraw : Obligations.HasDrawnExactlyAfterDraw := by
  intro s t hclean hstep ht
  rcases step_eq_next_cases hclean hstep with ⟨i, u, f, hfetch, hexec, rfl, _⟩ | ⟨hnone, hend⟩
  · constructor
    · refine fun hdrawn => Classical.byContradiction fun hnot => ?_
      have hkept : u.fc = s.tickBegin.fc := (exec_updates hexec).fc_eq fun ⟨x, y, n, hi⟩ => hnot ⟨x, y, n, hi ▸ hfetch⟩
      exact Bool.false_ne_true (hkept.symm.trans hdrawn)
    · rintro ⟨x, y, n, hdrw⟩
      cases State.fetches_unique hfetch hdrw
      have hdrawn : u.fc = true := fc_of_exec_drw hexec ht
      exact hdrawn
  · have hcleared : t.fc = false := by rcases hend with ⟨_, _, _, rfl⟩ | ⟨_, rfl⟩ <;> rfl
    exact iff_of_false (fun hdrawn => Bool.false_ne_true (hcleared.symm.trans hdrawn)) fun ⟨_, _, _, hdrw⟩ => hnone _ hdrw

/-- Settles O50: the end of the tick writes FINISHED by whether the instruction is a jump to its own address. -/
theorem finishedExactlyAfterSelfJump : Obligations.FinishedExactlyAfterSelfJump := by
  intro s t hclean hstep ht
  rcases step_eq_next_cases hclean hstep with ⟨i, u, f, hfetch, _, rfl, hf⟩ | ⟨hnone, hend⟩
  · change f = true ↔ _
    rw [hf ht, isSelfJump_iff]
    constructor
    · rintro ⟨nnn, rfl, hself⟩
      exact ⟨nnn, hfetch, hself⟩
    · rintro ⟨nnn, hjp, hself⟩
      exact ⟨nnn, State.fetches_unique hfetch hjp, hself⟩
  · rcases hend with ⟨_, _, _, rfl⟩ | ⟨_, rfl⟩
    · exact nomatch ht
    · exact iff_of_false Bool.false_ne_true fun ⟨_, hjp, _⟩ => hnone _ hjp

end Sys2Proof.Machine
end

section
/-! The two invariants (10_state.md R22, R30–R32; 44_timers_keys.md R102, C4): every step and every call of the host keeps them, and
construction meets them. -/

namespace Sys2Proof.Machine

/-! ## Well-formed states -/

/-- What a state meets within a tick, before it ends: well formed, and no DIAG event yet. -/
def State.WfInTick (s : State) : Prop := s.Wf ∧ s.diag = none

/-- An update keeps a state well formed within a tick. -/
theorem Update.keeps_wf {p : Part} {t u : State} (hu : Update p t u) (ht : t.WfInTick) : u.WfInTick := by
  obtain ⟨hwf, hdiag⟩ := ht
  cases hu with
  | stack _ l h => exact ⟨{ hwf with stackBound := h hwf.stackBound }, hdiag⟩
  | display _ l h => exact ⟨{ hwf with fbSize := h.trans hwf.fbSize }, hdiag⟩
  | byte _ a x h => exact ⟨{ hwf with memWf := Memory.write_wf x hwf.memWf h }, hdiag⟩
  | faultRecord _ code n h =>
    have hn : n ≤ 65536 := h hwf.legal
    exact ⟨{ hwf with infoBound := Nat.le_trans (Nat.le_of_eq (infoOf_toNat hn)) hn, recordClear := nofun, diagClear := fun _ => hdiag }, hdiag⟩
  | _ => exact ⟨{ hwf with }, hdiag⟩

variable {s t : State}

theorem Updates.keeps_wf {W : Part → Prop} (h : Updates W s t) (hs : s.WfInTick) : t.WfInTick :=
  h.preserves (fun _ _ _ hu => hu.keeps_wf) hs

theorem State.Wf.setFinished (h : s.Wf) (f : Bool) : (s.setFinished f).Wf := { h with }

theorem State.Wf.tickBegin (h : s.Wf) : s.tickBegin.WfInTick := ⟨{ h with diagClear := fun _ => rfl }, rfl⟩

theorem State.Wf.afterUnknown (h : s.Wf) (hclean : s.clean) (w : Word) : (s.afterUnknown w).Wf :=
  { h with diagClear := fun hfault => absurd hclean hfault }

/-- Settles O45: the start of a tick, each update and the end of the tick keep the state well formed. -/
theorem stepKeepsTheStateWellFormed : Obligations.StepKeepsTheStateWellFormed := by
  intro s t hwf hstep
  by_cases hclean : s.clean
  · rcases step_eq_next_cases hclean hstep with ⟨i, u, f, _, hexec, rfl, _⟩ | ⟨_, ⟨code, n, hn, rfl⟩ | ⟨w, rfl⟩⟩
    · exact ((exec_updates hexec).keeps_wf hwf.tickBegin).1.setFinished f
    · exact ((Update.faultRecord _ code n fun _ => hn).keeps_wf hwf.tickBegin).1
    · exact hwf.afterUnknown hclean w
  · cases (step_of_fault s hclean).symm.trans hstep
    exact hwf

/-! ## KWAIT at the key read -/

/-- A state with the same word at PC, and KWAIT set only if it was, meets the invariant still. -/
theorem State.KeyWaitWf.congr (h : s.KeyWaitWf) (hcfg : t.cfg = s.cfg) (hmem : t.mem = s.mem) (hpc : t.pc = s.pc)
    (hkwait : t.kwait = s.kwait) : t.KeyWaitWf := by
  intro hset
  obtain ⟨x, hx⟩ := h (hkwait ▸ hset)
  exact ⟨x, State.fetches_congr hcfg hmem hpc hx⟩

/-- Where the key read leaves KWAIT set it leaves PC (R102). -/
theorem pc_of_exec_ldVxK {x : Reg} (hexec : exec (.ldVxK x) s = .next t) (hset : t.kwait = true) : t.pc = s.pc := by
  change execLdVxK x s = _ at hexec
  unfold execLdVxK at hexec
  split at hexec <;> cases hexec
  · rfl
  · rfl
  · rfl
  · exact nomatch hset

/-- A key read keeps the word at PC where it leaves KWAIT set. -/
theorem keyWaitWf_of_exec_ldVxK {x : Reg} (hfetch : s.fetches (.ldVxK x)) (hexec : exec (.ldVxK x) s = .next t) : t.KeyWaitWf := by
  intro hset
  have hup := exec_updates hexec
  have hmem : t.mem = s.mem := hup.mem_eq fun a => by simp [Writes]
  exact ⟨x, State.fetches_congr hup.cfg_eq hmem (pc_of_exec_ldVxK hexec hset) hfetch⟩

/-- Settles O46: with KWAIT set only a key read can run, and it leaves PC while KWAIT stays set; no other instruction sets KWAIT. -/
theorem stepKeepsKwaitAtKeyRead : Obligations.StepKeepsKwaitAtKeyRead := by
  intro s t hkey hstep
  by_cases hclean : s.clean
  · rcases step_eq_next_cases hclean hstep with ⟨i, u, f, hfetch, hexec, rfl, _⟩ | ⟨hnone, hend⟩
    · by_cases hread : ∃ x, i = .ldVxK x
      · obtain ⟨x, rfl⟩ := hread
        have hu : u.KeyWaitWf := keyWaitWf_of_exec_ldVxK (s := s.tickBegin) hfetch hexec
        exact hu.congr rfl rfl rfl rfl
      · have hkept : u.kwait = s.kwait := (exec_updates hexec).kwait_eq hread
        intro hset
        obtain ⟨x, hx⟩ := hkey (hkept.symm.trans hset)
        exact absurd ⟨x, State.fetches_unique hfetch hx⟩ hread
    · have hkept : t.kwait = s.kwait := by rcases hend with ⟨_, _, _, rfl⟩ | ⟨_, rfl⟩ <;> rfl
      intro hset
      obtain ⟨x, hx⟩ := hkey (hkept.symm.trans hset)
      exact absurd hx (hnone _)
  · cases (step_of_fault s hclean).symm.trans hstep
    exact hkey

/-! ## Construction and the host's calls -/

theorem State.initial_wf {c : Config} (h : c.legal = true) : (State.initial c).Wf where
  legal := h
  stackBound := Nat.zero_le _
  fbSize := List.length_replicate
  memWf := ⟨List.Pairwise.nil, nofun, nofun⟩
  infoBound := Nat.zero_le _
  recordClear _ := ⟨rfl, rfl⟩
  diagClear _ := rfl

/-- Settles O47: the reset state is the initial state of the default parameters, and its KWAIT is clear. -/
theorem resetMeetsTheInvariants : Obligations.ResetMeetsTheInvariants := ⟨State.initial_wf (by decide), nofun⟩

/-- Construction succeeds with legal parameters only, and answers the initial state with the program placed. -/
theorem legal_of_construct {c : Config} {program : List Byte} (h : construct c program = .next s) :
    c.legal = true ∧ s = (State.initial c).placeProgram program := by
  unfold construct at h
  split at h
  · cases h
  · split at h
    · cases h
    · exact ⟨by simp_all, (Host.Outcome.next.inj h).symm⟩

/-- Both invariants. -/
def State.Invariants (s : State) : Prop := s.Wf ∧ s.KeyWaitWf

theorem construct_invariants {c : Config} {program : List Byte} (h : construct c program = .next s) : s.Invariants := by
  obtain ⟨hlegal, rfl⟩ := legal_of_construct h
  have hup := (State.initial c).storeBytes_updates 512 program
  have hkwait : ((State.initial c).placeProgram program).kwait = false := hup.kwait_eq (by simp)
  exact ⟨(hup.keeps_wf ⟨State.initial_wf hlegal, rfl⟩).1, fun hset => absurd (hkwait.symm.trans hset) Bool.false_ne_true⟩

theorem hostSetKey_invariants {k : Nat} {b : Bool} (hs : s.Invariants) (h : hostSetKey k b s = .next t) : t.Invariants := by
  unfold hostSetKey at h
  split at h <;> cases h
  exact ⟨{ hs.1 with }, hs.2.congr rfl rfl rfl rfl⟩

theorem hostEvent_invariants {e : HostEvent} (hs : s.Invariants) (h : hostEvent e s = .next t) : t.Invariants := by
  cases e with
  | tick => exact ⟨stepKeepsTheStateWellFormed s t hs.1 h, stepKeepsKwaitAtKeyRead s t hs.2 h⟩
  | press k => exact hostSetKey_invariants hs h
  | release k => exact hostSetKey_invariants hs h
  | supply b =>
    cases h
    exact ⟨{ hs.1 with }, hs.2.congr rfl rfl rfl rfl⟩

theorem hostRun_invariants {es : List HostEvent} (hs : s.Invariants) (h : hostRun es s = .next t) : t.Invariants := by
  induction es generalizing s with
  | nil =>
    cases h
    exact hs
  | cons e es ih =>
    unfold hostRun at h
    split at h
    next u hu => exact ih (hostEvent_invariants hs hu) h
    next => cases h
    next => cases h

/-- Settles O48: construction meets the invariants and every event keeps them. -/
theorem everyHostRunKeepsTheInvariants : Obligations.EveryHostRunKeepsTheInvariants :=
  fun _ _ _ _ _ hconstruct hrun => hostRun_invariants (construct_invariants hconstruct) hrun

end Sys2Proof.Machine
end

section
/-! The statements about the shifts and RND (41_alu.md R78–R80) and about ADD I,VX (42_index_memory.md R82). -/

namespace Sys2Proof.Machine

variable (s : State)

/-! ## The shifts (R68, R78, R79) -/

theorem shiftRight_one_toNat (b : Byte) : (b >>> 1).toNat = b.toNat / 2 := by
  rw [BitVec.toNat_ushiftRight, Nat.shiftRight_eq_div_pow]

theorem shiftLeft_one_toNat (b : Byte) : (b <<< 1).toNat = 2 * b.toNat % 256 := by
  rw [BitVec.toNat_shiftLeft, Nat.shiftLeft_eq, Nat.mul_comm]

theorem lowBitFlag_toNat (b : Byte) : (lowBitFlag b).toNat = b.toNat % 2 := by
  rw [lowBitFlag, BitVec.toNat_and]
  exact Nat.and_one_is_mod b.toNat

theorem highBitFlag_toNat (b : Byte) : (highBitFlag b).toNat = b.toNat / 128 := by
  have hb : b.toNat < 256 := b.isLt
  have hbit := lowBitFlag_toNat (b >>> 7)
  rw [BitVec.toNat_ushiftRight, Nat.shiftRight_eq_div_pow] at hbit
  change (lowBitFlag (b >>> 7)).toNat = _
  omega

/-- An instruction that writes a shift's result and flag and advances. -/
theorem completes_of_exec_eq_writeShift {i : Instr} {x : Reg} {r f : Byte} {result flag : Nat}
    (h : exec i s = .next (s.writeShift x r f).advance) (hr : r.toNat = result) (hf : f.toNat = flag) :
    Completes i s fun t => ShiftWrites s t x result flag ∧ PcPast s.pc t.pc 2 ∧ UnchangedBut [.reg x, .reg vf, .pc] s t := by
  refine ⟨_, h, ⟨fun horder => ?flagThenDest, fun horder => ?destThenFlag⟩, ?pc, ?frame⟩
  case flagThenDest =>
    refine ⟨?_, fun hx => ?_⟩
    · simp [State.getV_writeShift, horder, hr]
    · simp [State.getV_writeShift, horder, hf, hx.symm]
  case destThenFlag =>
    refine ⟨?_, fun hx => ?_⟩
    · simp [State.getV_writeShift, horder, hf]
    · simp [State.getV_writeShift, horder, hr, hx]
  case pc => exact s.writeShift_pc x r f ▸ State.advance_pcPast (s.writeShift x r f)
  case frame => exact (s.writeShift_frame x r f).comp (State.advance_frame _)

/-- Settles O12: both are one shift write, of VY's half and low bit or of VY's double and high bit. -/
theorem shiftsMoveVyIntoVx : Obligations.ShiftsMoveVyIntoVx := fun s _ y =>
  ⟨completes_of_exec_eq_writeShift s rfl (shiftRight_one_toNat (s.getV y)) (lowBitFlag_toNat (s.getV y)),
   completes_of_exec_eq_writeShift s rfl (shiftLeft_one_toNat (s.getV y)) (highBitFlag_toNat (s.getV y))⟩

/-! ## RND (R80) -/

/-- RND, whichever source gives the byte. -/
theorem exec_rnd_completes (x : Reg) (nn : Byte) :
    Completes (.rnd x nn) s fun t => (∀ j, (t.getV x).getLsbD j = (s.rndByte.getLsbD j != nn.getLsbD j)) ∧
      t.rndIn = s.rndIn.tail ∧ t.rndDraws = s.rndDraws + 1 ∧ PcPast s.pc t.pc 2 ∧ UnchangedBut [.reg x, .pc, .random] s t := by
  refine ⟨_, rfl, fun j => ?bits, rfl, rfl, pcPast_add s.pc 2, ?frame⟩
  case bits =>
    rw [State.getV_advance, State.getV_setV_same]
    exact BitVec.getLsbD_xor
  case frame => exact ((s.afterDraw_frame.comp (State.setV_frame _ x _)).comp (State.advance_frame _)).mono (by simp)

/-- Settles O13: the byte is the head of the supply, or the free byte where there is none. -/
theorem randomIsXoredIntoVx : Obligations.RandomIsXoredIntoVx := by
  intro s x nn
  have hrnd := exec_rnd_completes s x nn
  refine ⟨fun r rest hsupply => ?supplied, fun hempty => ?free⟩
  case supplied => simpa [State.rndByte, hsupply] using hrnd
  case free => simpa [State.rndByte, hempty] using hrnd

/-! ## ADD I,VX (R82) -/

/-- Settles O22: one write of I, by a 16-bit sum. -/
theorem addIndexWrapsAtSixteenBits : Obligations.AddIndexWrapsAtSixteenBits := by
  intro s x
  have hsum : (s.i + zextByte (s.getV x)).toNat = (s.i.toNat + (s.getV x).toNat) % 65536 := by
    rw [BitVec.toNat_add, zextByte, BitVec.toNat_setWidth_of_le (by decide)]
  have haddI := completes_of_exec_eq_setI s (i := .addI x) rfl
  exact haddI.imp fun t ⟨hindex, hrest⟩ => ⟨hindex ▸ hsum, hrest⟩

end Sys2Proof.Machine
end

section
/-! The statements about control transfer and the key skips (40_control.md R59–R66; 44_timers_keys.md R99, R100). -/

namespace Sys2Proof.Machine

variable (s : State)

/-! ## Skips -/

/-- Settles O15: both are skips on VX = VY, which holds where X = Y. -/
theorem registerSkipsMoveOnlyPc : Obligations.RegisterSkipsMoveOnlyPc := by
  intro s x y
  have hse := completes_of_exec_eq_skipIf s (i := .seReg x y) (c := s.getV x == s.getV y) rfl
  have hsne := completes_of_exec_eq_skipIf s (i := .sneReg x y) (c := s.getV x != s.getV y) rfl
  simp only [beq_iff_eq] at hse
  simp only [bne_iff_ne, ite_not] at hsne
  simp only [or_iff_right_of_imp (congrArg s.getV : x = y → _)]
  exact ⟨hse, hsne⟩

/-- Settles O38: with a key number in VX both are skips on that key's line. -/
theorem keySkipsFollowTheLine : Obligations.KeySkipsFollowTheLine := by
  intro s x k hk
  have hsknp := completes_of_exec_eq_skipIf s (exec_sknp_of_eq s hk)
  simp only [Bool.not_eq_true', ← Bool.not_eq_true, ite_not] at hsknp
  exact ⟨completes_of_exec_eq_skipIf s (exec_skp_of_eq s hk), hsknp⟩

/-! ## Jumps (R60, R66) -/

/-- A byte and a 12-bit operand do not wrap at 16 bits. -/
theorem zextByte_add_zext16_toNat (b : Byte) (nnn : Addr12) : (zextByte b + zext16 nnn).toNat = b.toNat + nnn.toNat := by
  have hb : b.toNat < 256 := b.isLt
  have hnnn : nnn.toNat < 4096 := nnn.isLt
  rw [BitVec.toNat_add, zextByte, BitVec.toNat_setWidth_of_le (by decide), zext16_toNat, Nat.mod_eq_of_lt (by omega)]

/-- Settles O16: each is one write of PC. -/
theorem jumpsSetPc : Obligations.JumpsSetPc := fun s nnn =>
  ⟨⟨_, rfl, zext16_toNat nnn, s.setPc_frame _⟩, ⟨_, rfl, zextByte_add_zext16_toNat (s.getV 0) nnn, s.setPc_frame _⟩⟩

/-! ## RET and CALL (R59, R61) -/

/-- Settles O18: a stack write and a PC write, with their frames; on an empty stack the raise. -/
theorem returnPopsAndResumes : Obligations.ReturnPopsAndResumes := by
  intro s
  refine ⟨fun r rest hstack => ⟨_, exec_ret_of_cons s hstack, rfl, pcPast_add r 2, ?frame⟩,
    fun hempty => ⟨_, exec_ret_of_nil s hempty, rfl⟩⟩
  case frame => exact (s.setStack_frame rest).comp (State.setPc_frame _ _)

/-- Settles O19: a CALL that does not fault leaves its own address on top, which is what RET resumes after. -/
theorem returnUndoesCall : Obligations.ReturnUndoesCall := by
  intro s t u nnn _ hcall ht hstack
  by_cases hroom : s.stack.length < s.cfg.stackDepth
  · cases (exec_call_of_lt s hroom).symm.trans hcall
    exact ⟨_, exec_ret_of_cons u hstack, rfl, pcPast_add s.pc 2, rfl⟩
  · cases (exec_call_of_full s (Nat.le_of_not_lt hroom)).symm.trans hcall
    exact nomatch ht

/-- A jump target with PC's number is PC. -/
theorem zext16_eq_of_toNat_eq {nnn : Addr12} {p : Word} (h : nnn.toNat = p.toNat) : zext16 nnn = p :=
  BitVec.eq_of_toNat_eq ((zext16_toNat nnn).trans h)

/-- The state after a tick of a CALL to itself with room on the stack. -/
def State.afterSelfCall (s : State) : State := (s.tickBegin.setStack (s.pc :: s.stack)).setFinished false

variable {s}

/-- A CALL to itself pushes its address and stays where it is. -/
theorem step_selfCall_of_lt {nnn : Addr12} (hclean : s.clean) (hfetch : s.fetches (.call nnn)) (hself : nnn.toNat = s.pc.toNat)
    (hroom : s.stack.length < s.cfg.stackDepth) : step s = .next s.afterSelfCall := by
  have hexec := exec_call_of_lt s.tickBegin (nnn := nnn) hroom
  rw [zext16_eq_of_toNat_eq hself] at hexec
  exact step_of_fetches_of_exec s hclean hfetch hexec hclean

/-- Settles O20: by induction on the ticks; each of the first n pushes, and the one that finds the stack full raises. -/
theorem selfCallFillsTheStackThenFaults : Obligations.SelfCallFillsTheStackThenFaults := by
  intro s nnn n hclean hfetch hself
  induction n generalizing s with
  | zero => exact ⟨fun _ => ⟨s, rfl, rfl, rfl, hclean⟩, fun _ hpos => absurd hpos (Nat.lt_irrefl 0)⟩
  | succ n ih =>
    have hnext : s.stack.length < s.cfg.stackDepth → Host.Core.run core (n + 1) s = Host.Core.run core n s.afterSelfCall :=
      fun hroom => run_succ n (step_selfCall_of_lt hclean hfetch hself hroom)
    obtain ⟨hpush, hfault⟩ := ih s.afterSelfCall hclean (State.fetches_congr rfl rfl rfl hfetch) hself
    have hlength : s.afterSelfCall.stack.length = s.stack.length + 1 := List.length_cons
    have hdepth : s.afterSelfCall.cfg.stackDepth = s.cfg.stackDepth := rfl
    refine ⟨fun hfits => ?pushes, fun hfull _ => ?faults⟩
    case pushes =>
      obtain ⟨t, hrun, hstack, hpc, ht⟩ := hpush (by rw [hlength, hdepth]; omega)
      have hcopies : List.replicate n s.pc ++ s.pc :: s.stack = List.replicate (n + 1) s.pc ++ s.stack := by
        rw [List.replicate_succ', List.append_assoc, List.singleton_append]
      exact ⟨t, (hnext (by omega)).trans hrun, hstack.trans hcopies, hpc, ht⟩
    case faults =>
      by_cases hlast : n = 0
      · subst hlast
        have hexec := exec_call_of_full s.tickBegin (nnn := nnn) (show s.cfg.stackDepth ≤ s.stack.length by omega)
        have hstep : step s = .next (s.tickBegin.raise .stackOverflow noInfo) := by
          rw [step_of_fetches s hclean hfetch, hexec]
          rfl
        exact ⟨_, run_succ 0 hstep, s.tickBegin.raise_records .stackOverflow (Nat.zero_le _)⟩
      · obtain ⟨t, hrun, ht⟩ := hfault (by rw [hlength, hdepth]; omega) (Nat.pos_of_ne_zero hlast)
        exact ⟨t, (hnext (by omega)).trans hrun, ht⟩

end Sys2Proof.Machine
end

section
/-! The statements about DRW (43_display.md R95), the reset state (70_reset_and_hazards.md R120, R121) and the key calls (R113). -/

namespace Sys2Proof.Machine

variable (s : State)

/-! ## DRW -/

theorem State.spriteRows_length (n : Nibble) : (s.spriteRows n).length = n.toNat := by simp [State.spriteRows]

/-- The rows of the sprite are the bytes memory reads at I. -/
theorem State.spriteRows_getElem? {n : Nibble} (h : s.base + n.toNat ≤ s.cfg.memSize) {k : Nat} (hk : k < n.toNat) :
    s.memRead (s.base + k) = (s.spriteRows n)[k]? := by
  have hread : s.memRead (s.base + k) = some (s.byteAt (s.base + k)) := if_pos (by omega)
  simp [hread, State.spriteRows, hk]

/-- Settles O31: DRW is the write-back of the blit and the default advance, and has their frames. -/
theorem drawBlitsTheSpriteAtI : Obligations.DrawBlitsTheSpriteAtI := by
  intro s x y n hrange
  refine ⟨s.spriteRows n, s.spriteRows_length n, fun k hk => s.spriteRows_getElem? hrange hk, _, exec_drw_of_le s hrange,
    s.applyCanvas_fb _, s.applyCanvas_getV_vf _, s.applyCanvas_fc _, ?pc, ?frame⟩
  case pc => exact s.applyCanvas_pc _ ▸ State.advance_pcPast (s.applyCanvas _)
  case frame => exact ((s.applyCanvas_frame _).comp (State.advance_frame _)).mono (by simp)

/-! ## Reset and the key calls -/

theorem State.memRead_initial (c : Config) (a : Nat) :
    (State.initial c).memRead a = if a < c.memSize then some (if h : a < 80 then c.font[a] else 0) else none := rfl

theorem State.getV_initial (c : Config) (r : Reg) : (State.initial c).getV r = 0 := Vector.getElem_replicate r.isLt

theorem State.key_initial (c : Config) (k : Fin 16) : (State.initial c).key k = false := Vector.getElem_replicate k.isLt

/-- Settles O54: the registers are written out in the initial state; memory reads the font and zeros. -/
theorem resetState : Obligations.ResetState := by
  refine ⟨rfl, List.length_replicate, fun b => List.eq_of_mem_replicate, State.getV_initial _, rfl, rfl, rfl, rfl, State.key_initial _,
    rfl, rfl, rfl, rfl, rfl, rfl, fun a => ?memory⟩
  case memory =>
    have hsize : defaultConfig.memSize = 4096 := rfl
    rw [State.reset, State.memRead_initial, hsize]
    by_cases hfont : a < 80
    · rw [if_pos (by omega), dif_pos hfont, dif_pos hfont]
      rfl
    · rw [dif_neg hfont, dif_neg hfont]

theorem hostSetKey_of_lt (k : Fin 16) (b : Bool) : hostSetKey k b s = .next (s.setKey k b) := dif_pos k.isLt

/-- Settles O56: a key call is one write of a key line, or is refused. -/
theorem keyCallsWriteOneLine : Obligations.KeyCallsWriteOneLine := by
  intro s k
  have hwrites : ∀ (h : k < 16) (b : Bool), ∃ t,
      hostSetKey k b s = .next t ∧ t.key ⟨k, h⟩ = b ∧ UnchangedBut [.key ⟨k, h⟩] s t :=
    fun h b => ⟨_, hostSetKey_of_lt s ⟨k, h⟩ b, (s.key_setKey _ _ b).trans (if_pos rfl), s.setKey_frame _ b⟩
  exact ⟨fun h => ⟨hwrites h true, hwrites h false⟩,
    fun hout => ⟨⟨_, dif_neg (Nat.not_lt.mpr hout)⟩, ⟨_, dif_neg (Nat.not_lt.mpr hout)⟩⟩⟩

end Sys2Proof.Machine
end

section
/-! The statements about memory (20_memory.md, 42_index_memory.md R84–R86) and about the two loaders (30_encoding.md R39;
70_reset_and_hazards.md R121, R123). -/

namespace Sys2Proof.Machine

variable {s : State}

/-- The order of the parts in a frame does not matter. -/
theorem UnchangedBut.swap {l m : List Part} {t : State} (h : UnchangedBut (l ++ m) s t) : UnchangedBut (m ++ l) s t :=
  h.mono fun _ hp => List.perm_append_comm.mem_iff.mp hp

/-! ## A run of byte writes inside canonical memory -/

/-- The addresses written read the bytes, every other address what it read before. -/
theorem State.memRead_storeBytes (hwf : Memory.Wf s.cfg s.mem) {base : Nat} {xs : List Byte} (h : base + xs.length ≤ s.cfg.memSize)
    (a : Nat) : (s.storeBytes base xs).1.memRead a =
      if base ≤ a ∧ a < base + xs.length then xs[a - base]? else s.memRead a := by
  obtain ⟨m, hstore, _, _, hbytes⟩ := State.storeBytes_spec xs base s hwf
  rw [hstore]
  change (if a < s.cfg.memSize then some (({ s with mem := m } : State).byteAt a) else none) = _
  rw [hbytes h a]
  by_cases hin : base ≤ a ∧ a < base + xs.length
  · have hlt : a - base < xs.length := by omega
    rw [if_pos (by omega), if_pos hin, if_pos hin, List.getD_eq_getElem?_getD, List.getElem?_eq_getElem hlt, Option.getD_some]
  · rw [if_neg hin, if_neg hin]
    rfl

/-- The byte written k past the base is read there. -/
theorem State.memRead_storeBytes_at (hwf : Memory.Wf s.cfg s.mem) {base : Nat} {xs : List Byte} (h : base + xs.length ≤ s.cfg.memSize)
    {k : Nat} (hk : k < xs.length) : (s.storeBytes base xs).1.memRead (base + k) = xs[k]? := by
  rw [State.memRead_storeBytes hwf h, if_pos (by omega), Nat.add_sub_cancel_left]

/-- Nothing changes but the bytes written. -/
theorem State.storeBytes_frame (hwf : Memory.Wf s.cfg s.mem) {base : Nat} {xs : List Byte} (h : base + xs.length ≤ s.cfg.memSize) :
    UnchangedBut (bytesFrom base xs.length) s (s.storeBytes base xs).1 := by
  intro p hp
  cases p with
  | byte a =>
    have hout : ¬ (base ≤ a ∧ a < base + xs.length) := by
      rintro ⟨hle, hlt⟩
      refine hp (List.mem_map.mpr ⟨a - base, List.mem_range.mpr (by omega), ?_⟩)
      rw [Nat.add_sub_cancel' hle]
    exact (State.memRead_storeBytes hwf h a).trans (if_neg hout)
  | _ =>
    obtain ⟨m, hstore, _⟩ := State.storeBytes_spec xs base s hwf
    simp [hstore, Part.same, State.getV, State.key]

theorem State.storeBytes_pc (base : Nat) (xs : List Byte) : (s.storeBytes base xs).1.pc = s.pc :=
  (s.storeBytes_updates base xs).pc_eq (by simp)

theorem State.storeBytes_cfg (base : Nat) (xs : List Byte) : (s.storeBytes base xs).1.cfg = s.cfg :=
  (s.storeBytes_updates base xs).cfg_eq

/-! ## LD B (R84) -/

/-- The digits of a byte are its decimal expansion. -/
theorem bcdDigits_spec (b : Byte) : ∃ h d o : Byte, bcdDigits b = [h, d, o] ∧
    b.toNat = 100 * h.toNat + 10 * d.toNat + o.toNat ∧ d.toNat < 10 ∧ o.toNat < 10 := by
  have hb : b.toNat < 256 := b.isLt
  refine ⟨_, _, _, rfl, ?_⟩
  simp only [BitVec.toNat_ofNat]
  omega

/-- Settles O24: the three writes are the digits, and with the default advance they are all that changes. -/
theorem bcdStoresThreeDigits : Obligations.BcdStoresThreeDigits := by
  intro s x hwf hrange
  obtain ⟨h, d, o, hdigits, hsum, hd, ho⟩ := bcdDigits_spec (s.getV x)
  have hexec := exec_ldB_of_le s (x := x) hrange
  rw [hdigits] at hexec
  have hread : ∀ k, k < 3 → (s.storeBytes s.base [h, d, o]).1.memRead (s.base + k) = [h, d, o][k]? :=
    fun k hk => State.memRead_storeBytes_at hwf hrange hk
  refine ⟨_, hexec, h, d, o, hread 0 (by decide), hread 1 (by decide), hread 2 (by decide), hsum, hd, ho, ?pc, ?frame⟩
  case pc => exact State.storeBytes_pc (s := s) s.base [h, d, o] ▸ State.advance_pcPast _
  case frame => exact ((State.storeBytes_frame (xs := [h, d, o]) hwf hrange).comp (State.advance_frame _)).swap

/-! ## LD [I] and LD VX,[I] (R85, R86) -/

/-- The dumped values, register by register. -/
theorem State.valuesUpTo_getElem? {r x : Reg} (h : r.toNat ≤ x.toNat) : (s.valuesUpTo x)[r.toNat]? = some (s.getV r) := by
  have hlt : r.toNat < x.toNat + 1 := Nat.lt_succ_of_le h
  simp [State.valuesUpTo, regsUpTo, hlt]

/-- A register dumped inside memory is read at its address. -/
theorem State.memRead_dump (hwf : Memory.Wf s.cfg s.mem) {r x : Reg} (hrange : s.base + x.toNat + 1 ≤ s.cfg.memSize)
    (h : r.toNat ≤ x.toNat) : (s.storeBytes s.base (s.valuesUpTo x)).1.memRead (s.base + r.toNat) = some (s.getV r) := by
  rw [State.memRead_storeBytes_at hwf (by rw [State.length_valuesUpTo]; omega) (by rw [State.length_valuesUpTo]; omega),
    State.valuesUpTo_getElem? h]

theorem State.indexPast_toNat (x : Reg) : (s.indexPast x).toNat = (s.i.toNat + x.toNat + 1) % 65536 := by
  rw [State.indexPast, BitVec.toNat_add, BitVec.toNat_ofNat, Nat.add_mod_mod, Nat.add_assoc]

/-- Settles O25: the writes are the registers' values, and with I and PC they are all that changes. -/
theorem registerDumpStoresUpToX : Obligations.RegisterDumpStoresUpToX := by
  intro s x hwf hrange
  have hfits : s.base + (s.valuesUpTo x).length ≤ s.cfg.memSize := by rw [State.length_valuesUpTo]; omega
  refine ⟨_, exec_storeRegs_of_le s hrange, fun r hr => State.memRead_dump hwf hrange hr, State.indexPast_toNat x, ?pc, ?frame⟩
  case pc => exact State.storeBytes_pc (s := s) s.base (s.valuesUpTo x) ▸ State.advance_pcPast (State.setI _ _)
  case frame =>
    have hstore := State.storeBytes_frame hwf hfits
    rw [State.length_valuesUpTo] at hstore
    exact (hstore.comp ((State.setI_frame _ _).comp (State.advance_frame _))).swap

/-- Each register up to X is loaded from its address, and no other register changes. -/
theorem State.getV_load {x : Reg} (hrange : s.base + x.toNat + 1 ≤ s.cfg.memSize) (r : Reg) :
    (s.loadBytes s.base (regsUpTo x)).1.getV r = if r.toNat ≤ x.toNat then s.byteAt (s.base + r.toNat) else s.getV r := by
  have hin : ∀ q ∈ regsUpTo x, s.base + q.toNat < s.cfg.memSize := fun q hq => by
    have hle : q.toNat ≤ x.toNat := mem_regsUpTo.mp hq
    omega
  rw [State.getV_loadBytes s.base (regsUpTo x) s hin r]
  simp only [mem_regsUpTo]

theorem State.loadBytes_frame (base : Nat) (rs : List Reg) : UnchangedBut (rs.map .reg) s (s.loadBytes base rs).1 := by
  obtain ⟨v, hload, _, hkept⟩ := State.loadBytes_spec base rs s
  rw [hload]
  intro p hp
  cases p with
  | reg r => exact hkept r fun hr => hp (List.mem_map_of_mem hr)
  | faultRecord => exact ⟨rfl, rfl, rfl⟩
  | random => exact ⟨rfl, rfl⟩
  | _ => rfl

/-- Settles O26: the loads are the bytes at I, and with I and PC they are all that changes. -/
theorem registerLoadReadsUpToX : Obligations.RegisterLoadReadsUpToX := by
  intro s x hrange
  refine ⟨_, exec_loadRegs_of_le s hrange, fun r hr => ?loaded, fun r hr => ?kept, State.indexPast_toNat x, ?pc, ?frame⟩
  case loaded =>
    have hload := State.getV_load hrange r
    rw [if_pos hr] at hload
    exact s.memRead_eq_some.mpr ⟨by omega, hload.symm⟩
  case kept => exact (State.getV_load hrange r).trans (if_neg (Nat.not_le.mpr hr))
  case pc =>
    have hpc : (s.loadBytes s.base (regsUpTo x)).1.pc = s.pc := (s.loadBytes_updates s.base (regsUpTo x)).pc_eq (by simp)
    exact hpc ▸ State.advance_pcPast (State.setI _ _)
  case frame =>
    have hload : UnchangedBut ((destinations (.loadRegs x)).map .reg) s _ := State.loadBytes_frame s.base (regsUpTo x)
    exact (hload.comp ((State.setI_frame _ _).comp (State.advance_frame _))).swap

/-- Settles O27: the load reads at each register's address what the dump wrote there. -/
theorem loadUndoesDump : Obligations.LoadUndoesDump := by
  intro s t u x hwf hrange hdump hcfg hmem hi
  cases (exec_storeRegs_of_le s hrange).symm.trans hdump
  have hcfg' : u.cfg = s.cfg := hcfg.trans (State.storeBytes_cfg _ _)
  have hbase : u.base = s.base := congrArg BitVec.toNat hi
  have hrange' : u.base + x.toNat + 1 ≤ u.cfg.memSize := by rw [hbase, hcfg']; exact hrange
  refine ⟨_, exec_loadRegs_of_le u hrange', fun r hr => ?restored, ?index⟩
  case restored =>
    have hdumped : u.memRead (u.base + r.toNat) = some (s.getV r) := by
      rw [hbase, State.memRead_congr hcfg hmem]
      exact State.memRead_dump hwf hrange hr
    exact ((State.getV_load hrange' r).trans (if_pos hr)).trans (u.memRead_eq_some.mp hdumped).2
  case index => exact congrArg (· + BitVec.ofNat 16 (x.toNat + 1)) hi

/-- Settles O28: the fetch composes the two bytes the dump wrote at I. -/
theorem storeIsSeenByTheNextFetch : Obligations.StoreIsSeenByTheNextFetch := by
  intro s t x hwf hrange hx hdump
  cases (exec_storeRegs_of_le s hrange).symm.trans hdump
  have h0 := State.memRead_dump hwf hrange (r := 0) (Nat.zero_le _)
  have h1 := State.memRead_dump hwf hrange (r := 1) hx
  exact ⟨_, State.fetch16_of_memRead _ h0 h1, composeWord_toNat _ _⟩

/-! ## The loader of one word (R39, log 13) -/

/-- Settles O7: placing a word is writing its two bytes, which the fetch composes again. -/
theorem withFetchWordIsFetchedNext : Obligations.WithFetchWordIsFetchedNext := by
  intro s w hwf hpc hw
  have hword : s.withFetchWord 16 w = (s.storeBytes s.pc.toNat (wordBytes (BitVec.ofNat 16 w))).1 := by
    rw [State.withFetchWord, State.placeWord, Nat.mod_eq_of_lt (show w < 2 ^ 16 from hw)]
  have hread : ∀ k, k < 2 → (s.storeBytes s.pc.toNat (wordBytes (BitVec.ofNat 16 w))).1.memRead (s.pc.toNat + k) = _ :=
    fun k hk => State.memRead_storeBytes_at hwf hpc hk
  rw [hword]
  refine ⟨?fetched, State.storeBytes_frame (xs := wordBytes _) hwf hpc⟩
  case fetched =>
    have hfetch := State.fetch16_of_memRead _ (hread 0 (by decide)) (hread 1 (by decide))
    exact hfetch.trans (congrArg some (composeWord_highByte_lowByte _))

/-! ## Construction (R121, R123) -/

/-- Settles O55: construction of a legal block writes the program's bytes into the initial memory, or refuses it by its length. -/
theorem constructPlacesTheProgram : Obligations.ConstructPlacesTheProgram := by
  intro c program hlegal
  have hconstruct : construct c program =
      if c.memSize - 512 < program.length then .refused (.programTooLong program.length)
      else .next ((State.initial c).placeProgram program) := if_neg (by simp [hlegal])
  have hsize : 514 ≤ c.memSize := (memSize_bounds_of_legal hlegal).1
  have hwf : Memory.Wf (State.initial c).cfg (State.initial c).mem := (State.initial_wf hlegal).memWf
  refine ⟨fun hfits => ?placed, fun hlong => ⟨_, hconstruct.trans (if_pos hlong)⟩⟩
  case placed =>
    have hrange : 512 + program.length ≤ (State.initial c).cfg.memSize := by
      change 512 + program.length ≤ c.memSize
      omega
    refine ⟨_, hconstruct.trans (if_neg (Nat.not_lt.mpr hfits)), fun a ha => ?memory, State.storeBytes_frame hwf hrange⟩
    rw [State.placeProgram, State.memRead_storeBytes hwf hrange, State.memRead_initial, if_pos ha]
    by_cases hfont : a < 80
    · rw [dif_pos hfont, dif_pos hfont, if_neg (by omega)]
    · rw [dif_neg hfont, dif_neg hfont]

end Sys2Proof.Machine
end

section
/-! The statements about the blocking key read and the standing programs (44_timers_keys.md R102; 60_exceptions.md R119, R126): a program
whose tick changes only the timers and the flags stands still for any number of ticks. -/

namespace Sys2Proof.Machine

variable {s : State} {x : Reg}

/-! ## The lowest pressed key (R102) -/

theorem State.lowestKey_eq_none (h : ∀ k, s.key k = false) : s.lowestKey = none :=
  List.find?_eq_none.mpr fun k _ => by simp [h k]

theorem State.lowestKey_eq_some {k : Fin 16} (hk : s.key k = true) (hlow : ∀ j, j < k → s.key j = false) :
    s.lowestKey = some k := by
  refine List.find?_eq_some_iff_getElem.mpr ⟨hk, k.val, by simp, by simp, fun j hj => ?_⟩
  have hfalse : s.key ⟨j, by omega⟩ = false := hlow ⟨j, by omega⟩ hj
  simp [hfalse]

theorem State.exists_lowestKey {k : Fin 16} (hk : s.key k = true) : ∃ j, s.lowestKey = some j :=
  Option.isSome_iff_exists.mp (List.find?_isSome.mpr ⟨k, List.mem_finRange k, hk⟩)

/-! ## LD VX,K, phase by phase (R102) -/

theorem exec_ldVxK_stall (hwait : s.kwait = false) (hnone : ∀ k, s.key k = false) : exec (.ldVxK x) s = .next s := by
  simp only [exec, execLdVxK, hwait, State.lowestKey_eq_none hnone]

theorem exec_ldVxK_latch {k : Fin 16} (hwait : s.kwait = false) (hk : s.key k = true) (hlow : ∀ j, j < k → s.key j = false) :
    exec (.ldVxK x) s = .next ((s.setV x (BitVec.ofNat 8 k.val)).setKwait true) := by
  simp only [exec, execLdVxK, hwait, State.lowestKey_eq_some hk hlow]

theorem exec_ldVxK_hold {k : Fin 16} (hwait : s.kwait = true) (hk : s.key k = true) : exec (.ldVxK x) s = .next s := by
  obtain ⟨j, hj⟩ := State.exists_lowestKey hk
  simp only [exec, execLdVxK, hwait, hj]

theorem exec_ldVxK_release (hwait : s.kwait = true) (hnone : ∀ k, s.key k = false) :
    exec (.ldVxK x) s = .next (s.setKwait false).advance := by
  simp only [exec, execLdVxK, hwait, State.lowestKey_eq_none hnone]

/-- Settles O39: the four phases, each with the frame of its writes. -/
theorem keyReadLatchesThenWaitsForRelease : Obligations.KeyReadLatchesThenWaitsForRelease := by
  intro s x
  refine ⟨fun hwait hnone => ⟨s, exec_ldVxK_stall hwait hnone, UnchangedBut.refl s []⟩, fun k hwait hk hlow => ?latch,
    fun k hwait hk => ⟨s, exec_ldVxK_hold hwait hk, UnchangedBut.refl s []⟩, fun hwait hnone => ?release⟩
  case latch =>
    refine ⟨_, exec_ldVxK_latch hwait hk hlow, ?_, rfl, (s.setV_frame x _).comp (State.setKwait_frame _ true)⟩
    have hk256 : k.val < 256 := by omega
    rw [State.getV_setKwait, State.getV_setV_same, BitVec.toNat_ofNat, Nat.mod_eq_of_lt hk256]
  case release =>
    exact ⟨_, exec_ldVxK_release hwait hnone, rfl, pcPast_add s.pc 2, (s.setKwait_frame false).comp (State.advance_frame _)⟩

/-! ## Standing still (R119, R126) -/

/-- The state after a tick that only starts and ends. -/
def State.idle (s : State) (f : Bool) : State := s.tickBegin.setFinished f

theorem State.idle_frame (s : State) (f : Bool) : UnchangedBut [.delay, .sound, .frameChanged, .finished, .diag] s (s.idle f) :=
  (s.tickBegin_frame.comp (State.setFinished_frame _ f)).mono (by simp)

/-- Where every tick from the states of `P` is idle and leads to `P` again, the block stands still. -/
theorem exists_run_standsStillFor {P : State → Prop} {f : Bool} (hstep : ∀ s, P s → step s = .next (s.idle f))
    (hP : ∀ s, P s → P (s.idle f)) (n : Nat) {s : State} (hs : P s) :
    ∃ t, Host.Core.run Sys2Proof.core n s = .next t ∧ StandsStillFor n s t f := by
  induction n generalizing s with
  | zero => exact ⟨s, rfl, UnchangedBut.refl s _, rfl, rfl, fun h => absurd h (Nat.lt_irrefl 0)⟩
  | succ n ih =>
    obtain ⟨t, hrun, hframe, hdt, hst, hflags⟩ := ih (hP s hs)
    have hdt' : t.dt.toNat = s.dt.toNat - 1 - n := hdt.trans (congrArg (· - n) (decay_toNat s.dt))
    have hst' : t.st.toNat = s.st.toNat - 1 - n := hst.trans (congrArg (· - n) (decay_toNat s.st))
    refine ⟨t, (run_succ n (hstep s hs)).trans hrun, ((s.idle_frame f).comp hframe).mono (by simp), by omega, by omega, fun _ => ?_⟩
    by_cases hn : n = 0
    · subst hn
      cases hrun
      exact ⟨rfl, rfl, rfl⟩
    · exact hflags (Nat.pos_of_ne_zero hn)

/-- A program at a key read that can only stall. -/
structure State.WaitsForKeys (s : State) (x : Reg) : Prop where
  clean : s.clean
  fetch : s.fetches (.ldVxK x)
  phase : (s.kwait = false ∧ ∀ k, s.key k = false) ∨ (s.kwait = true ∧ ∃ k, s.key k = true)

theorem State.WaitsForKeys.step_eq (h : s.WaitsForKeys x) : step s = .next (s.idle false) := by
  have hexec : exec (.ldVxK x) s.tickBegin = .next s.tickBegin := by
    rcases h.phase with ⟨hwait, hnone⟩ | ⟨hwait, k, hk⟩
    · exact exec_ldVxK_stall hwait hnone
    · exact exec_ldVxK_hold hwait hk
  exact step_of_fetches_of_exec s h.clean h.fetch hexec h.clean

theorem State.WaitsForKeys.idle (h : s.WaitsForKeys x) (f : Bool) : (s.idle f).WaitsForKeys x :=
  ⟨h.clean, State.fetches_congr rfl rfl rfl h.fetch, h.phase⟩

/-- Settles O40: a tick that stalls leaves the same phase of the same key read. -/
theorem keyWaitStallsForever : Obligations.KeyWaitStallsForever := fun _ x n hclean hfetch hphase =>
  exists_run_standsStillFor (P := fun s => s.WaitsForKeys x) (fun _ h => h.step_eq) (fun _ h => h.idle false) n
    ⟨hclean, hfetch, hphase⟩

/-- A program at a jump to its own address. -/
structure State.JumpsToItself (s : State) (nnn : Addr12) : Prop where
  clean : s.clean
  fetch : s.fetches (.jp nnn)
  self : nnn.toNat = s.pc.toNat

variable {nnn : Addr12}

theorem State.JumpsToItself.step_eq (h : s.JumpsToItself nnn) : step s = .next (s.idle true) := by
  have hexec : exec (.jp nnn) s.tickBegin = .next s.tickBegin := by
    change Host.Outcome.next (s.tickBegin.setPc (zext16 nnn)) = _
    rw [zext16_eq_of_toNat_eq h.self]
    rfl
  have hself : isSelfJump (.jp nnn) s.pc = true := isSelfJump_iff.mpr ⟨nnn, rfl, h.self⟩
  exact hself ▸ step_of_fetches_of_exec s h.clean h.fetch hexec h.clean

theorem State.JumpsToItself.idle (h : s.JumpsToItself nnn) (f : Bool) : (s.idle f).JumpsToItself nnn :=
  ⟨h.clean, State.fetches_congr rfl rfl rfl h.fetch, h.self⟩

/-- Settles O53: a jump to its own address writes the PC it has, and the next tick is at it again. -/
theorem selfJumpHaltsTheProgram : Obligations.SelfJumpHaltsTheProgram := fun _ nnn n hclean hfetch hself =>
  exists_run_standsStillFor (P := fun s => s.JumpsToItself nnn) (fun _ h => h.step_eq) (fun _ h => h.idle true) n
    ⟨hclean, hfetch, hself⟩

end Sys2Proof.Machine
end

section
/-! The bytes of a blit (43_display.md R87–R91): it is an exclusive or with a mask that does not depend on the frame buffer, so the same
blit done twice changes nothing. -/

namespace Sys2Proof.Machine

/-! ## A blit is an exclusive or with a mask -/

/-- The operation changes each byte of the frame buffer by exclusive or with its mask's byte. -/
def XorsMask (f : Canvas → Canvas) (M : Nat → Byte) : Prop :=
  ∀ k : Canvas, (f k).fb.length = k.fb.length ∧ ∀ a, a < k.fb.length → (f k).fb.getD a 0 = k.fb.getD a 0 ^^^ M a

theorem XorsMask.id : XorsMask (fun k => k) fun _ => 0 := fun _ => ⟨rfl, fun _ _ => BitVec.xor_zero.symm⟩

theorem XorsMask.comp {f g : Canvas → Canvas} {M N : Nat → Byte} (hg : XorsMask g N) (hf : XorsMask f M) :
    XorsMask (fun k => g (f k)) fun a => M a ^^^ N a := by
  intro k
  obtain ⟨hflen, hfbyte⟩ := hf k
  obtain ⟨hglen, hgbyte⟩ := hg (f k)
  refine ⟨hglen.trans hflen, fun a ha => ?_⟩
  rw [hgbyte a (hflen.symm ▸ ha), hfbyte a ha, BitVec.xor_assoc]

theorem xorsMask_xorByte (b : Nat) (m : Byte) : XorsMask (·.xorByte b m) fun a => if a = b then m else 0 := by
  intro k
  refine ⟨k.xorByte_length b m, fun a ha => ?_⟩
  change (k.xorByte b m).fb.getD a 0 = k.fb.getD a 0 ^^^ if a = b then m else 0
  by_cases hb : b < k.fb.length
  · rw [k.xorByte_getD b a m hb]
    split
    · rfl
    · exact BitVec.xor_zero.symm
  · have hsame : (k.xorByte b m).fb = k.fb := List.set_eq_of_length_le (Nat.le_of_not_lt hb)
    rw [hsame, if_neg (by omega)]
    exact BitVec.xor_zero.symm

/-- XorByte with an empty mask does nothing. -/
theorem Canvas.xorByte_zero (k : Canvas) (b : Nat) : k.xorByte b 0 = k := by
  have hfb : (k.xorByte b 0).fb = k.fb := by
    refine List.ext_getElem (k.xorByte_length b 0) fun a ha ha' => ?_
    have hbyte := (xorsMask_xorByte b 0 k).2 a ha'
    simpa [List.getD_eq_getElem?_getD, ha'] using hbyte
  have hcollided : (k.xorByte b 0).collided = k.collided := by simp [Canvas.xorByte_collided]
  change Canvas.mk (k.xorByte b 0).fb (k.xorByte b 0).collided = Canvas.mk k.fb k.collided
  rw [hfb, hcollided]

/-- The byte column of the part of a row past its first byte. -/
def secondColumn (c : Config) (x0 : Nat) : Nat := (x0 / 8 + 1) % c.bytesPerRow

/-- The mask of that part: nothing where it would fall back on the first byte, and nothing of an aligned row. -/
def secondMask (c : Config) (x0 : Nat) (row : Byte) : Byte :=
  if secondColumn c x0 = x0 / 8 then 0 else row <<< (8 - x0 % 8)

/-- A row is two XorBytes, the second with an empty mask where the model leaves it out (R90). -/
theorem Canvas.blitRow_eq_xorByte_xorByte (c : Config) (x0 yy : Nat) (row : Byte) (k : Canvas) :
    k.blitRow c x0 yy row = (k.xorByte (yy * c.bytesPerRow + x0 / 8) (row >>> (x0 % 8))).xorByte
      (yy * c.bytesPerRow + secondColumn c x0) (secondMask c x0 row) := by
  unfold Canvas.blitRow secondMask
  by_cases hcol : secondColumn c x0 = x0 / 8
  · rw [if_pos hcol, Canvas.xorByte_zero]
    exact if_neg fun h => h.2 hcol
  · rw [if_neg hcol]
    by_cases haligned : x0 % 8 = 0
    · have hmask : row <<< (8 - x0 % 8) = 0 := by rw [haligned]; exact BitVec.shiftLeft_eq_zero (Nat.le_refl 8)
      rw [hmask, Canvas.xorByte_zero]
      exact if_neg fun h => h.1 haligned
    · exact if_pos ⟨haligned, hcol⟩

theorem exists_xorsMask_blitRow (c : Config) (x0 yy : Nat) (row : Byte) : ∃ M, XorsMask (·.blitRow c x0 yy row) M := by
  simp only [Canvas.blitRow_eq_xorByte_xorByte]
  exact ⟨_, (xorsMask_xorByte _ _).comp (xorsMask_xorByte _ _)⟩

/-- The drawing of one sprite row, at its display row or not at all. -/
def Canvas.drawRow (c : Config) (x0 y0 r : Nat) (row : Byte) (k : Canvas) : Canvas :=
  match rowTarget c y0 r with
  | none => k
  | some yy => k.blitRow c x0 yy row

theorem Canvas.blitRows_cons (c : Config) (x0 y0 r : Nat) (row : Byte) (rows : List Byte) (k : Canvas) :
    Canvas.blitRows c x0 y0 r (row :: rows) k = Canvas.blitRows c x0 y0 (r + 1) rows (Canvas.drawRow c x0 y0 r row k) := rfl

theorem exists_xorsMask_drawRow (c : Config) (x0 y0 r : Nat) (row : Byte) : ∃ M, XorsMask (Canvas.drawRow c x0 y0 r row) M := by
  unfold Canvas.drawRow
  cases rowTarget c y0 r with
  | none => exact ⟨_, XorsMask.id⟩
  | some yy => exact exists_xorsMask_blitRow c x0 yy row

theorem exists_xorsMask_blitRows (c : Config) (x0 y0 r : Nat) (rows : List Byte) :
    ∃ M, XorsMask (Canvas.blitRows c x0 y0 r rows) M := by
  induction rows generalizing r with
  | nil => exact ⟨_, XorsMask.id⟩
  | cons row rows ih =>
    obtain ⟨M, hrow⟩ := exists_xorsMask_drawRow c x0 y0 r row
    obtain ⟨N, hrows⟩ := ih (r + 1)
    exact ⟨_, hrows.comp hrow⟩

/-- An exclusive or with a mask, done twice, restores the frame buffer. -/
theorem XorsMask.twice {f : Canvas → Canvas} {M : Nat → Byte} (hf : XorsMask f M) (fb : List Byte) :
    (f ⟨(f ⟨fb, false⟩).fb, false⟩).fb = fb := by
  obtain ⟨hlen, hbyte⟩ := hf ⟨fb, false⟩
  obtain ⟨hlen', hbyte'⟩ := hf ⟨(f ⟨fb, false⟩).fb, false⟩
  refine List.ext_getElem (hlen'.trans hlen) fun a ha ha' => ?_
  have htwice := hbyte' a (hlen.symm ▸ ha')
  rw [hbyte a ha', BitVec.xor_assoc, BitVec.xor_self, BitVec.xor_zero] at htwice
  simpa [List.getD_eq_getElem?_getD, ha, ha'] using htwice

/-- Settles O34: both blits are the exclusive or with one mask. -/
theorem drawingTwiceRestoresTheDisplay : Obligations.DrawingTwiceRestoresTheDisplay := by
  intro c x y rows fb
  obtain ⟨M, hM⟩ := exists_xorsMask_blitRows c (x % c.width) (y % c.height) 0 rows
  exact hM.twice fb

end Sys2Proof.Machine
end

section
/-! The pixels of a blit (43_display.md R87–R91): each drawn row flips the pixels it covers with a set bit, and collides where one of
them is set. -/

namespace Sys2Proof.Machine

variable {c : Config} {k : Canvas}

/-! ## The pixels of a byte -/

/-- The place of a byte in the frame buffer gives its display row and its column. -/
theorem rowByte_inj {w y1 y2 x1 x2 : Nat} (h1 : x1 < w) (h2 : x2 < w) : y1 * w + x1 = y2 * w + x2 ↔ y1 = y2 ∧ x1 = x2 := by
  constructor
  · intro h
    have hw : 0 < w := by omega
    have hy : y1 = y2 := by
      have hdiv := congrArg (· / w) h
      simpa [Nat.add_comm (_ * w), Nat.add_mul_div_right _ _ hw, Nat.div_eq_of_lt h1, Nat.div_eq_of_lt h2] using hdiv
    subst hy
    exact ⟨rfl, Nat.add_left_cancel h⟩
  · rintro ⟨rfl, rfl⟩
    rfl

section
variable (hlegal : c.legal = true) (hsize : k.fb.length = c.fbBytes) {yy col : Nat} (hyy : yy < c.height) (hcol : col < c.bytesPerRow)
  (m : Byte)
include hlegal

theorem byteColumn_lt {px : Nat} (hpx : px < c.width) : px / 8 < c.bytesPerRow :=
  Nat.div_lt_of_lt_mul (width_eq_of_legal hlegal ▸ hpx)

include hsize hyy hcol

/-- XorByte flips the pixels of its byte that its mask has. -/
theorem pixelOf_xorByte {px : Nat} (hpx : px < c.width) (py : Nat) :
    pixelOf c (k.xorByte (yy * c.bytesPerRow + col) m).fb px py =
      (pixelOf c k.fb px py != (decide (py = yy ∧ px / 8 = col) && m.getLsbD (7 - px % 8))) := by
  have hin : yy * c.bytesPerRow + col < k.fb.length := by
    have hlt := pixelByte_lt_fbBytes hlegal (x := 8 * col) (by rw [width_eq_of_legal hlegal]; omega) hyy
    rwa [Nat.mul_div_cancel_left _ (by decide), ← hsize] at hlt
  rw [pixelOf, k.xorByte_lane m hin, pixelOf]
  simp only [rowByte_inj (byteColumn_lt hlegal hpx) hcol]
  split <;> simp [*]

omit hlegal hsize hyy hcol in
/-- XorByte collides where its mask meets a set pixel of its byte. -/
theorem xorByte_collided_iff_pixel :
    (k.xorByte (yy * c.bytesPerRow + col) m).collided = true ↔ k.collided = true ∨
      ∃ px, px / 8 = col ∧ pixelOf c k.fb px yy = true ∧ m.getLsbD (7 - px % 8) = true := by
  rw [k.xorByte_collided_iff]
  refine or_congr_right ⟨?_, ?_⟩
  · rintro ⟨j, hset, hmask⟩
    have hj : j < 8 := BitVec.lt_of_getLsbD hmask
    have hdiv : (8 * col + (7 - j)) / 8 = col := by omega
    have hmod : 7 - (8 * col + (7 - j)) % 8 = j := by omega
    exact ⟨8 * col + (7 - j), hdiv, by rwa [pixelOf, hdiv, hmod], by rwa [hmod]⟩
  · rintro ⟨px, rfl, hset, hmask⟩
    exact ⟨7 - px % 8, hset, hmask⟩

end

/-! ## The pixels of a row (R89, R90) -/

/-- The sprite row drawn from column `x0` covers column `px` of its display row with a set bit. -/
def rowCovers (c : Config) (x0 : Nat) (row : Byte) (px : Nat) : Bool :=
  let i := (px + c.width - x0) % c.width
  decide (i < 8) && decide (c.width = 8 → x0 ≤ px) && row.getLsbD (7 - i)

/-- A number below twice the modulus wraps once at most. -/
theorem mod_eq_of_lt_two_mul {a n : Nat} (h : a < 2 * n) : a % n = if a < n then a else a - n := by
  split
  · exact Nat.mod_eq_of_lt ‹_›
  · rw [Nat.mod_eq_sub_mod (by omega), Nat.mod_eq_of_lt (by omega)]

/-- Where the row begins at or left of the pixel it has not wrapped there. -/
theorem rowCovers_of_le {x0 px : Nat} (hle : x0 ≤ px) (hpx : px < c.width) (row : Byte) :
    rowCovers c x0 row px = (decide (px - x0 < 8) && row.getLsbD (7 - (px - x0))) := by
  have hcolumn : (px + c.width - x0) % c.width = px - x0 := by
    rw [mod_eq_of_lt_two_mul (by omega), if_neg (by omega)]
    omega
  simp [rowCovers, hcolumn, hle]

/-- Right of the pixel it has, and where W = 8 the wrapped part is not drawn. -/
theorem rowCovers_of_gt {x0 px : Nat} (hgt : px < x0) (hx0 : x0 < c.width) (row : Byte) :
    rowCovers c x0 row px =
      (decide (px + c.width - x0 < 8 ∧ c.width ≠ 8) && row.getLsbD (7 - (px + c.width - x0))) := by
  have hcolumn : (px + c.width - x0) % c.width = px + c.width - x0 := Nat.mod_eq_of_lt (by omega)
  simp [rowCovers, hcolumn, Nat.not_le.mpr hgt]

section
variable (hlegal : c.legal = true) {x0 px : Nat} (hx0 : x0 < c.width) (hpx : px < c.width) (row : Byte)
include hlegal hx0

theorem secondColumn_eq : secondColumn c x0 = if x0 / 8 + 1 < c.bytesPerRow then x0 / 8 + 1 else 0 := by
  have hcol := byteColumn_lt hlegal hx0
  rw [secondColumn, mod_eq_of_lt_two_mul (by omega)]
  split <;> omega

include hpx

/-- In the byte column where the row begins, the first mask's bit is the row's. -/
theorem rowCovers_firstColumn (hcol : px / 8 = x0 / 8) : rowCovers c x0 row px = (row >>> (x0 % 8)).getLsbD (7 - px % 8) := by
  have hwidth := width_eq_of_legal hlegal
  rw [BitVec.getLsbD_ushiftRight]
  by_cases hle : x0 ≤ px
  · have hin : px - x0 < 8 := by omega
    have hbit : 7 - (px - x0) = x0 % 8 + (7 - px % 8) := by omega
    simp [rowCovers_of_le hle hpx, hin, hbit]
  · have hout : ¬ (px + c.width - x0 < 8 ∧ c.width ≠ 8) := by omega
    have hbit : row.getLsbD (x0 % 8 + (7 - px % 8)) = false := BitVec.getLsbD_of_ge _ _ (by omega)
    rw [rowCovers_of_gt (Nat.lt_of_not_le hle) hx0, decide_eq_false hout, hbit, Bool.false_and]

/-- In the byte column after it, the second mask's bit is the row's. -/
theorem rowCovers_secondColumn (hcol : px / 8 = secondColumn c x0) (hne : px / 8 ≠ x0 / 8) :
    rowCovers c x0 row px = (secondMask c x0 row).getLsbD (7 - px % 8) := by
  have hwidth := width_eq_of_legal hlegal
  have hsecond := secondColumn_eq hlegal hx0
  have hx0col := byteColumn_lt hlegal hx0
  have hcovers : rowCovers c x0 row px = (decide (px % 8 < x0 % 8) && row.getLsbD (7 - (8 + px % 8 - x0 % 8))) := by
    by_cases hle : x0 ≤ px
    · have hnext : px - x0 = 8 + px % 8 - x0 % 8 := by split at hsecond <;> omega
      have hin : 8 + px % 8 - x0 % 8 < 8 ↔ px % 8 < x0 % 8 := by omega
      simp [rowCovers_of_le hle hpx, hnext, hin]
    · have hnext : px + c.width - x0 = 8 + px % 8 - x0 % 8 := by split at hsecond <;> omega
      have hin : (8 + px % 8 - x0 % 8 < 8 ∧ c.width ≠ 8) ↔ px % 8 < x0 % 8 := by omega
      simp only [rowCovers_of_gt (Nat.lt_of_not_le hle) hx0, hnext, hin]
  rw [hcovers, secondMask, if_neg (hcol ▸ hne), BitVec.getLsbD_shiftLeft]
  by_cases hlt : px % 8 < x0 % 8
  · have hbit : 7 - (8 + px % 8 - x0 % 8) = 7 - px % 8 - (8 - x0 % 8) := by omega
    have hin : ¬ 7 - px % 8 < 8 - x0 % 8 := by omega
    have hlane : 7 - px % 8 < 8 := by omega
    simp [hlt, hbit, hin, hlane]
  · have hout : 7 - px % 8 < 8 - x0 % 8 := by omega
    simp [hlt, hout]

/-- In every other byte column the row covers nothing. -/
theorem rowCovers_otherColumn (hne : px / 8 ≠ x0 / 8) (hne' : px / 8 ≠ secondColumn c x0) : rowCovers c x0 row px = false := by
  have hwidth := width_eq_of_legal hlegal
  have hsecond := secondColumn_eq hlegal hx0
  have hpxcol := byteColumn_lt hlegal hpx
  by_cases hle : x0 ≤ px
  · have hout : ¬ px - x0 < 8 := by split at hsecond <;> omega
    rw [rowCovers_of_le hle hpx, decide_eq_false hout, Bool.false_and]
  · have hout : ¬ (px + c.width - x0 < 8 ∧ c.width ≠ 8) := by split at hsecond <;> omega
    rw [rowCovers_of_gt (Nat.lt_of_not_le hle) hx0, decide_eq_false hout, Bool.false_and]

end

/-- The second mask has no bit in the first byte column. -/
theorem not_secondMask_of_firstColumn {x0 : Nat} (h : secondColumn c x0 = x0 / 8) (row : Byte) (j : Nat) :
    (secondMask c x0 row).getLsbD j = false := by
  rw [secondMask, if_pos h]
  exact BitVec.getLsbD_zero

section
variable (hlegal : c.legal = true) (hsize : k.fb.length = c.fbBytes) {x0 yy : Nat} (hx0 : x0 < c.width) (hyy : yy < c.height)
  (row : Byte)
include hlegal hx0

/-- The row's pixels are those of the two masks, and no pixel is in both. -/
theorem rowCovers_eq {px : Nat} (hpx : px < c.width) : rowCovers c x0 row px =
    ((decide (px / 8 = x0 / 8) && (row >>> (x0 % 8)).getLsbD (7 - px % 8)) !=
      (decide (px / 8 = secondColumn c x0) && (secondMask c x0 row).getLsbD (7 - px % 8))) := by
  by_cases hfirst : px / 8 = x0 / 8
  · have hcovers := rowCovers_firstColumn hlegal hx0 hpx row hfirst
    by_cases hsecond : secondColumn c x0 = x0 / 8
    · simp [hcovers, hfirst, not_secondMask_of_firstColumn hsecond]
    · simp [hcovers, hfirst, Ne.symm hsecond]
  · by_cases hsecond : px / 8 = secondColumn c x0
    · simp [rowCovers_secondColumn hlegal hx0 hpx row hsecond hfirst, hfirst, ← hsecond]
    · simp [rowCovers_otherColumn hlegal hx0 hpx row hfirst hsecond, hfirst, hsecond]

theorem secondColumn_lt : secondColumn c x0 < c.bytesPerRow :=
  Nat.mod_lt _ (Nat.zero_lt_of_lt (byteColumn_lt hlegal hx0))

include hsize hyy

/-- A drawn row flips the pixels it covers with a set bit, and no other. -/
theorem pixelOf_blitRow {px : Nat} (hpx : px < c.width) (py : Nat) : pixelOf c (k.blitRow c x0 yy row).fb px py =
    (pixelOf c k.fb px py != (decide (py = yy) && rowCovers c x0 row px)) := by
  have hfirst := pixelOf_xorByte hlegal hsize hyy (byteColumn_lt hlegal hx0) (row >>> (x0 % 8)) hpx py
  rw [Canvas.blitRow_eq_xorByte_xorByte,
    pixelOf_xorByte hlegal ((Canvas.xorByte_length _ _ _).trans hsize) hyy (secondColumn_lt hlegal hx0) _ hpx, hfirst,
    rowCovers_eq hlegal hx0 row hpx]
  by_cases hpy : py = yy <;> simp [hpy]

/-- A drawn row collides where it covers a set pixel with a set bit. -/
theorem blitRow_collided_iff : (k.blitRow c x0 yy row).collided = true ↔ k.collided = true ∨
    ∃ px, px < c.width ∧ pixelOf c k.fb px yy = true ∧ rowCovers c x0 row px = true := by
  have hwidth := width_eq_of_legal hlegal
  have hx0col := byteColumn_lt hlegal hx0
  have hcol2 := secondColumn_lt hlegal hx0
  have hkept : ∀ px, px < c.width → px / 8 ≠ x0 / 8 →
      pixelOf c (k.xorByte (yy * c.bytesPerRow + x0 / 8) (row >>> (x0 % 8))).fb px yy = pixelOf c k.fb px yy := by
    intro px hpx hne
    simp [pixelOf_xorByte hlegal hsize hyy hx0col _ hpx, hne]
  rw [Canvas.blitRow_eq_xorByte_xorByte, xorByte_collided_iff_pixel, xorByte_collided_iff_pixel, or_assoc]
  refine or_congr_right ⟨?_, ?_⟩
  · rintro (⟨px, hcol, hset, hmask⟩ | ⟨px, hcol, hset, hmask⟩)
    · have hpx : px < c.width := by omega
      exact ⟨px, hpx, hset, (rowCovers_firstColumn hlegal hx0 hpx row hcol).trans hmask⟩
    · have hpx : px < c.width := by omega
      have hne : px / 8 ≠ x0 / 8 := fun heq =>
        Bool.false_ne_true ((not_secondMask_of_firstColumn (hcol.symm.trans heq) row _).symm.trans hmask)
      exact ⟨px, hpx, (hkept px hpx hne).symm.trans hset, (rowCovers_secondColumn hlegal hx0 hpx row hcol hne).trans hmask⟩
  · rintro ⟨px, hpx, hset, hcovers⟩
    by_cases hfirst : px / 8 = x0 / 8
    · exact .inl ⟨px, hfirst, hset, (rowCovers_firstColumn hlegal hx0 hpx row hfirst).symm.trans hcovers⟩
    · by_cases hsecond : px / 8 = secondColumn c x0
      · exact .inr ⟨px, hsecond, (hkept px hpx hfirst).trans hset,
          (rowCovers_secondColumn hlegal hx0 hpx row hsecond hfirst).symm.trans hcovers⟩
      · exact absurd ((rowCovers_otherColumn hlegal hx0 hpx row hfirst hsecond).symm.trans hcovers) Bool.false_ne_true

end

/-! ## The sprite's rows, one after the other (R89, R91) -/

theorem width_pos_of_legal (h : c.legal = true) : 0 < c.width := by
  simp only [Config.legal, Config.widthLegal, Bool.and_eq_true, decide_eq_true_eq] at h
  omega

theorem height_pos_of_legal (h : c.legal = true) : 0 < c.height := by
  simp only [Config.legal, Config.heightLegal, Bool.and_eq_true, decide_eq_true_eq] at h
  omega

/-- A sprite row is drawn at the display row that `rowPixel` names, where that is on the display. -/
theorem rowTarget_eq_some_iff {y0 r py : Nat} (hpy : py < c.height) :
    rowTarget c y0 r = some py ↔ py = if c.drawVWrap = true then (y0 + r) % c.height else y0 + r := by
  unfold rowTarget
  by_cases hin : y0 + r < c.height
  · rw [if_pos hin, Nat.mod_eq_of_lt hin, ite_self, Option.some.injEq, eq_comm]
  · rw [if_neg hin]
    by_cases hwrap : c.drawVWrap = true
    · rw [if_pos hwrap, if_pos hwrap, Option.some.injEq, eq_comm]
    · rw [if_neg hwrap, if_neg hwrap]
      exact iff_of_false nofun (by omega)

theorem rowPixel_eq (x y r : Nat) (row : Byte) (px : Nat) {py : Nat} (hpy : py < c.height) : rowPixel c x y r row px py =
    (decide (rowTarget c (y % c.height) r = some py) && rowCovers c (x % c.width) row px) := by
  simp only [rowPixel, rowCovers, rowTarget_eq_some_iff hpy]
  ac_rfl

section
variable (hlegal : c.legal = true) (hsize : k.fb.length = c.fbBytes) (x y r : Nat) (row : Byte)
include hlegal hsize

theorem pixelOf_drawRow {px py : Nat} (hpx : px < c.width) (hpy : py < c.height) :
    pixelOf c (k.drawRow c (x % c.width) (y % c.height) r row).fb px py = (pixelOf c k.fb px py != rowPixel c x y r row px py) := by
  rw [rowPixel_eq x y r row px hpy]
  unfold Canvas.drawRow
  cases htarget : rowTarget c (y % c.height) r with
  | none => simp
  | some yy =>
    have hyy : yy < c.height := rowTarget_lt (height_pos_of_legal hlegal) htarget
    have hx0 : x % c.width < c.width := Nat.mod_lt x (width_pos_of_legal hlegal)
    simp [pixelOf_blitRow hlegal hsize hx0 hyy row hpx py, eq_comm]

theorem drawRow_collided_iff : (k.drawRow c (x % c.width) (y % c.height) r row).collided = true ↔ k.collided = true ∨
    ∃ px py, px < c.width ∧ py < c.height ∧ pixelOf c k.fb px py = true ∧ rowPixel c x y r row px py = true := by
  unfold Canvas.drawRow
  cases htarget : rowTarget c (y % c.height) r with
  | none =>
    refine (or_iff_left ?_).symm
    rintro ⟨px, py, _, hpy, _, hrow⟩
    simp [rowPixel_eq x y r row px hpy, htarget] at hrow
  | some yy =>
    have hyy : yy < c.height := rowTarget_lt (height_pos_of_legal hlegal) htarget
    have hx0 : x % c.width < c.width := Nat.mod_lt x (width_pos_of_legal hlegal)
    refine (blitRow_collided_iff hlegal hsize hx0 hyy row).trans (or_congr_right ⟨?_, ?_⟩)
    · rintro ⟨px, hpx, hset, hcovers⟩
      exact ⟨px, yy, hpx, hyy, hset, by simp [rowPixel_eq x y r row px hyy, htarget, hcovers]⟩
    · rintro ⟨px, py, hpx, hpy, hset, hrow⟩
      rw [rowPixel_eq x y r row px hpy, htarget, Bool.and_eq_true, decide_eq_true_eq] at hrow
      obtain ⟨hyypy, hcovers⟩ := hrow
      cases hyypy
      exact ⟨px, hpx, hset, hcovers⟩

end

/-- The canvas once the first rows of the sprite are drawn, as many as the last argument says. -/
def drawnRows (c : Config) (x y : Nat) (rows fb : List Byte) : Nat → Canvas
  | 0 => ⟨fb, false⟩
  | n + 1 => (drawnRows c x y rows fb n).drawRow c (x % c.width) (y % c.height) n (rows.getD n 0)

theorem Canvas.blitRows_concat (x0 y0 r : Nat) (rows : List Byte) (row : Byte) (k : Canvas) :
    Canvas.blitRows c x0 y0 r (rows ++ [row]) k = (Canvas.blitRows c x0 y0 r rows k).drawRow c x0 y0 (r + rows.length) row := by
  induction rows generalizing r k with
  | nil => rfl
  | cons first rows ih =>
    rw [List.cons_append, Canvas.blitRows_cons, Canvas.blitRows_cons, ih, List.length_cons, Nat.add_right_comm]
    rfl

theorem blit_eq_drawnRows (x y : Nat) (rows fb : List Byte) : blit c x y rows fb = drawnRows c x y rows fb rows.length := by
  have htake : ∀ n, n ≤ rows.length →
      Canvas.blitRows c (x % c.width) (y % c.height) 0 (rows.take n) ⟨fb, false⟩ = drawnRows c x y rows fb n := by
    intro n hn
    induction n with
    | zero => rfl
    | succ n ih =>
      have hle : n ≤ rows.length := Nat.le_of_succ_le hn
      have hrow : rows.take (n + 1) = rows.take n ++ [rows.getD n 0] := by
        rw [List.getD_eq_getElem?_getD, List.getElem?_eq_getElem hn, Option.getD_some, List.take_append_getElem]
      rw [hrow, Canvas.blitRows_concat, ih hle, List.length_take, Nat.min_eq_left hle, Nat.zero_add, drawnRows]
  have hall := htake rows.length (Nat.le_refl _)
  rwa [List.take_length] at hall

theorem drawnRows_length (x y : Nat) (rows fb : List Byte) (n : Nat) : (drawnRows c x y rows fb n).fb.length = fb.length := by
  induction n with
  | zero => rfl
  | succ n ih =>
    obtain ⟨M, hM⟩ := exists_xorsMask_drawRow c (x % c.width) (y % c.height) n (rows.getD n 0)
    exact ((hM _).1).trans ih

section
variable (hlegal : c.legal = true) (x y : Nat) (rows : List Byte) {fb : List Byte} (hsize : fb.length = c.fbBytes)
include hlegal hsize

theorem pixelOf_drawnRows {px py : Nat} (hpx : px < c.width) (hpy : py < c.height) (n : Nat) :
    pixelOf c (drawnRows c x y rows fb n).fb px py = (pixelOf c fb px py != spriteFlips c x y rows px py n) := by
  induction n with
  | zero => simp [drawnRows, spriteFlips]
  | succ n ih =>
    rw [drawnRows, pixelOf_drawRow hlegal ((drawnRows_length x y rows fb n).trans hsize) x y n _ hpx hpy, ih, spriteFlips]
    simp

theorem drawnRows_collided_iff (n : Nat) : (drawnRows c x y rows fb n).collided = true ↔
    ∃ r px py, r < n ∧ px < c.width ∧ py < c.height ∧
      (pixelOf c fb px py != spriteFlips c x y rows px py r) = true ∧ rowPixel c x y r (rows.getD r 0) px py = true := by
  induction n with
  | zero => exact iff_of_false Bool.false_ne_true fun ⟨r, _, _, hr, _⟩ => absurd hr (Nat.not_lt_zero r)
  | succ n ih =>
    rw [drawnRows, drawRow_collided_iff hlegal ((drawnRows_length x y rows fb n).trans hsize), ih]
    constructor
    · rintro (⟨r, px, py, hr, hcollides⟩ | ⟨px, py, hpx, hpy, hset, hrow⟩)
      · exact ⟨r, px, py, Nat.lt_succ_of_lt hr, hcollides⟩
      · exact ⟨n, px, py, Nat.lt_succ_self n, hpx, hpy, (pixelOf_drawnRows hlegal x y rows hsize hpx hpy n).symm.trans hset, hrow⟩
    · rintro ⟨r, px, py, hr, hpx, hpy, hset, hrow⟩
      rcases Nat.lt_succ_iff_lt_or_eq.mp hr with hlt | rfl
      · exact .inl ⟨r, px, py, hlt, hpx, hpy, hset, hrow⟩
      · exact .inr ⟨px, py, hpx, hpy, (pixelOf_drawnRows hlegal x y rows hsize hpx hpy r).trans hset, hrow⟩

end

/-- Settles O57: each drawn row flips the pixels it covers. -/
theorem blitFlipsPixelsRowByRow : Obligations.BlitFlipsPixelsRowByRow := by
  intro c x y rows fb hlegal hsize px py hpx hpy
  rw [blit_eq_drawnRows]
  exact pixelOf_drawnRows hlegal x y rows hsize hpx hpy rows.length

/-- Settles O58: each drawn row collides where it covers a pixel set by then. -/
theorem blitCollidesRowByRow : Obligations.BlitCollidesRowByRow := by
  intro c x y rows fb hlegal hsize
  rw [blit_eq_drawnRows]
  exact drawnRows_collided_iff hlegal x y rows hsize rows.length

/-! ## Sprites whose rows do not overlap -/

/-- The only sprite row that can cover a display row. -/
def coveringRow (c : Config) (y py : Nat) : Nat :=
  if c.drawVWrap = true then (py + c.height - y % c.height) % c.height else py - y % c.height

section
variable (hlegal : c.legal = true) {x y px py : Nat} (hpy : py < c.height)
include hlegal hpy

/-- A row drawn at the display row, where no two rows overlap, is that row. -/
theorem eq_coveringRow_of_rowTarget {r : Nat} (hr : c.drawVWrap = false ∨ r < c.height)
    (htarget : rowTarget c (y % c.height) r = some py) : r = coveringRow c y py := by
  have hy0 : y % c.height < c.height := Nat.mod_lt y (height_pos_of_legal hlegal)
  rw [rowTarget_eq_some_iff hpy] at htarget
  unfold coveringRow
  by_cases hwrap : c.drawVWrap = true
  · have hr' : r < c.height := hr.resolve_left (by simp [hwrap])
    rw [if_pos hwrap, mod_eq_of_lt_two_mul (by omega)] at htarget
    rw [if_pos hwrap, mod_eq_of_lt_two_mul (by omega)]
    split at htarget <;> split <;> omega
  · rw [if_neg hwrap] at htarget ⊢
    omega

/-- That row is drawn at the display row where it wraps, or where the sprite begins at or above it. -/
theorem rowTarget_coveringRow_iff :
    rowTarget c (y % c.height) (coveringRow c y py) = some py ↔ c.drawVWrap = true ∨ y % c.height ≤ py := by
  have hy0 : y % c.height < c.height := Nat.mod_lt y (height_pos_of_legal hlegal)
  rw [rowTarget_eq_some_iff hpy, coveringRow]
  by_cases hwrap : c.drawVWrap = true
  · rw [if_pos hwrap, if_pos hwrap]
    refine iff_of_true ?_ (.inl hwrap)
    have hsum : y % c.height + (py + c.height - y % c.height) = py + c.height := by omega
    rw [Nat.add_mod_mod, hsum, Nat.add_mod_right, Nat.mod_eq_of_lt hpy]
  · rw [if_neg hwrap, if_neg hwrap, or_iff_right hwrap]
    omega

theorem eq_coveringRow_of_rowPixel {r : Nat} {row : Byte} (hr : c.drawVWrap = false ∨ r < c.height)
    (hrow : rowPixel c x y r row px py = true) : r = coveringRow c y py := by
  rw [rowPixel_eq x y r row px hpy, Bool.and_eq_true, decide_eq_true_eq] at hrow
  exact eq_coveringRow_of_rowTarget hlegal hpy hr hrow.1

/-- The sprite covers a pixel with that row, if it has one. -/
theorem spritePixel_eq (rows : List Byte) : spritePixel c x y rows px py =
    (decide (coveringRow c y py < rows.length) && rowPixel c x y (coveringRow c y py) (rows.getD (coveringRow c y py) 0) px py) := by
  have hsprite : spritePixel c x y rows px py = (decide (c.drawVWrap = true ∨ y % c.height ≤ py) &&
      rowCovers c (x % c.width) (rows.getD (coveringRow c y py) 0) px) := by
    simp only [spritePixel, rowCovers, coveringRow]
    ac_rfl
  rw [hsprite, rowPixel_eq x y _ _ px hpy]
  simp only [rowTarget_coveringRow_iff hlegal hpy]
  by_cases hrow : coveringRow c y py < rows.length
  · rw [decide_eq_true hrow, Bool.true_and]
  · have hempty : rows.getD (coveringRow c y py) 0 = 0 := by
      rw [List.getD_eq_getElem?_getD, List.getElem?_eq_none (Nat.le_of_not_lt hrow), Option.getD_none]
    rw [hempty, rowCovers, decide_eq_false hrow, Bool.false_and]
    simp

/-- Where no two rows overlap, a pixel is flipped once that row is drawn. -/
theorem spriteFlips_eq {rows : List Byte} {n : Nat} (hn : c.drawVWrap = false ∨ n ≤ c.height) : spriteFlips c x y rows px py n =
    (decide (coveringRow c y py < n) && rowPixel c x y (coveringRow c y py) (rows.getD (coveringRow c y py) 0) px py) := by
  induction n with
  | zero => simp [spriteFlips]
  | succ n ih =>
    rw [spriteFlips, ih (hn.imp_right Nat.le_of_succ_le)]
    by_cases hrow : n = coveringRow c y py
    · simp [← hrow]
    · have hnone : rowPixel c x y n (rows.getD n 0) px py = false :=
        Bool.eq_false_iff.mpr fun hcovers => hrow (eq_coveringRow_of_rowPixel hlegal hpy hn hcovers)
      have hlt : coveringRow c y py < n + 1 ↔ coveringRow c y py < n := by omega
      rw [hnone, Bool.bne_false]
      simp only [hlt]

end

/-- Settles O32: the rows do not overlap, so a pixel is flipped exactly by the row that covers it. -/
theorem blitXorsTheSpritesPixels : Obligations.BlitXorsTheSpritesPixels := by
  intro c x y rows fb hlegal hsize hrows px py hpx hpy
  rw [blitFlipsPixelsRowByRow c x y rows fb hlegal hsize px py hpx hpy, spriteFlips_eq hlegal hpy hrows, spritePixel_eq hlegal hpy]

/-- Settles O33: no row before the covering one has changed the pixel. -/
theorem blitCollidesExactlyOnSetPixels : Obligations.BlitCollidesExactlyOnSetPixels := by
  intro c x y rows fb hlegal hsize hrows
  rw [blitCollidesRowByRow c x y rows fb hlegal hsize]
  constructor
  · rintro ⟨r, px, py, hr, hpx, hpy, hset, hrow⟩
    have hr' : c.drawVWrap = false ∨ r < c.height := hrows.imp_right (Nat.lt_of_lt_of_le hr)
    have hcover : r = coveringRow c y py := eq_coveringRow_of_rowPixel hlegal hpy hr' hrow
    rw [spriteFlips_eq hlegal hpy (hr'.imp_right Nat.le_of_lt), ← hcover] at hset
    refine ⟨px, py, hpx, hpy, by simpa using hset, ?_⟩
    rw [spritePixel_eq hlegal hpy, ← hcover, hrow, decide_eq_true hr, Bool.true_and]
  · rintro ⟨px, py, hpx, hpy, hset, hsprite⟩
    rw [spritePixel_eq hlegal hpy, Bool.and_eq_true, decide_eq_true_eq] at hsprite
    obtain ⟨hr, hrow⟩ := hsprite
    have hle : c.drawVWrap = false ∨ coveringRow c y py ≤ c.height := hrows.imp_right (Nat.le_trans (Nat.le_of_lt hr))
    refine ⟨coveringRow c y py, px, py, hr, hpx, hpy, ?_, hrow⟩
    rw [spriteFlips_eq hlegal hpy hle, hset]
    simp

end Sys2Proof.Machine
end
